-- ==== Sys2Proof/Word.lean ====
section
/-! DEFINITION. The word types of the core (rules R7, R8, R21, R90): bytes, 16-bit words and register numbers. -/

namespace Sys2Proof

/-- The content of a general register, a timer or a memory byte: 8 bits, unsigned (R21, R32). -/
abbrev Byte := BitVec 8

/-- A 16-bit value: an instruction word, `pc`, `I`, a stack entry (R20, R90). -/
abbrev Word := BitVec 16

/-- A general register number, 0..15 (R21); every value of a 4-bit field names a register (R93). -/
abbrev Reg := Fin 16

/-- `VF`, register 15, which flag-writing instructions overwrite (R21, R38). -/
abbrev vF : Reg := 15

end Sys2Proof
end

