-- ==== Sys2Proof/Syntax.lean ====
section
/-! DEFINITION. The 34 instructions of the opcode map (R95, R96), one constructor per row, in the table's order.
Operands carry the widths of their fields (R91, R93): `x`, `y` are register numbers, `nnn` a 12-bit address, `kk` a
byte, `n` a nibble. -/

namespace Sys2Proof

inductive Instr where
  /-- `00E0` CLS (R210). -/
  | cls
  /-- `00EE` RETURN (R146). -/
  | ret
  /-- `1nnn` JUMP nnn (R140). -/
  | jump (nnn : BitVec 12)
  /-- `2nnn` CALL nnn (R144). -/
  | call (nnn : BitVec 12)
  /-- `3xkk` SE Vx, kk (R150). -/
  | seImm (x : Reg) (kk : Byte)
  /-- `4xkk` SNE Vx, kk (R151). -/
  | sneImm (x : Reg) (kk : Byte)
  /-- `5xy0` SE Vx, Vy (R152). -/
  | seReg (x y : Reg)
  /-- `6xkk` LD Vx, kk (R160). -/
  | ldImm (x : Reg) (kk : Byte)
  /-- `7xkk` ADD Vx, kk (R162). -/
  | addImm (x : Reg) (kk : Byte)
  /-- `8xy0` LD Vx, Vy (R164). -/
  | ldReg (x y : Reg)
  /-- `8xy1` OR Vx, Vy (R166). -/
  | orReg (x y : Reg)
  /-- `8xy2` AND Vx, Vy (R167). -/
  | andReg (x y : Reg)
  /-- `8xy3` XOR Vx, Vy (R168). -/
  | xorReg (x y : Reg)
  /-- `8xy4` ADD Vx, Vy (R170). -/
  | addReg (x y : Reg)
  /-- `8xy5` SUB Vx, Vy (R172). -/
  | subReg (x y : Reg)
  /-- `8xy6` SHR Vx (R174); the `y` field is kept so that no bit of the word is lost, and is not read (R97). -/
  | shr (x y : Reg)
  /-- `8xy7` SUBN Vx, Vy (R175). -/
  | subnReg (x y : Reg)
  /-- `8xyE` SHL Vx (R176); the `y` field as in `shr` (R97). -/
  | shl (x y : Reg)
  /-- `9xy0` SNE Vx, Vy (R153). -/
  | sneReg (x y : Reg)
  /-- `Annn` LD I, nnn (R190). -/
  | ldI (nnn : BitVec 12)
  /-- `Bnnn` JUMP V0, nnn (R142). -/
  | jumpV0 (nnn : BitVec 12)
  /-- `Cxkk` RND Vx, kk (R178). -/
  | rnd (x : Reg) (kk : Byte)
  /-- `Dxyn` DRAW Vx, Vy, n (R212). -/
  | draw (x y : Reg) (n : BitVec 4)
  /-- `Ex9E` SKP Vx (R220). -/
  | skp (x : Reg)
  /-- `ExA1` SKNP Vx (R222). -/
  | sknp (x : Reg)
  /-- `Fx07` LD Vx, DT (R226). -/
  | ldVxDT (x : Reg)
  /-- `Fx0A` LD Vx, K (R224). -/
  | ldVxK (x : Reg)
  /-- `Fx15` LD DT, Vx (R228). -/
  | ldDT (x : Reg)
  /-- `Fx18` LD ST, Vx (R230). -/
  | ldST (x : Reg)
  /-- `Fx1E` ADD I, Vx (R192). -/
  | addI (x : Reg)
  /-- `Fx29` LD F, Vx (R194). -/
  | ldF (x : Reg)
  /-- `Fx33` LD B, Vx (R196). -/
  | ldB (x : Reg)
  /-- `Fx55` LD [I], Vx (R198): `x` is a count, `V[0]..V[x-1]` are stored. -/
  | storeRegs (x : Reg)
  /-- `Fx65` LD Vx, [I] (R200): `x` is a count, `V[0]..V[x-1]` are loaded. -/
  | loadRegs (x : Reg)
  deriving DecidableEq, Repr

end Sys2Proof
end

