-- ==== Sys2Proof/WellFormed.lean ====
section
/-! DEFINITION. Operand ranges (R91, R93, R111). An operand written as a number is admitted by one of the four checks
below or refused; an `Instr` is built from admitted operands only, because its operand types have exactly the admitted
values. `Instr.wellFormed` says so operand by operand. -/

namespace Sys2Proof

/-- A register number: 0..15, `V0`..`VF` (R111). -/
def Operand.regOk (k : Nat) : Bool := k < 16

/-- `nnn` takes 0..0xFFF (R111). -/
def Operand.addrOk (k : Nat) : Bool := k < 0x1000

/-- `kk` takes 0..0xFF (R111). -/
def Operand.byteOk (k : Nat) : Bool := k < 0x100

/-- `n` takes 0..0xF (R111). -/
def Operand.nibbleOk (k : Nat) : Bool := k < 0x10

/-- A register operand from a number, refused outside its range. -/
def Operand.reg? (k : Nat) : Option Reg := if Operand.regOk k then some (Fin.ofNat 16 k) else none

/-- An address operand from a number, refused outside its range. -/
def Operand.addr? (k : Nat) : Option (BitVec 12) := if Operand.addrOk k then some (BitVec.ofNat 12 k) else none

/-- A byte operand from a number, refused outside its range. -/
def Operand.byte? (k : Nat) : Option Byte := if Operand.byteOk k then some (BitVec.ofNat 8 k) else none

/-- A nibble operand from a number, refused outside its range. -/
def Operand.nibble? (k : Nat) : Option (BitVec 4) := if Operand.nibbleOk k then some (BitVec.ofNat 4 k) else none

/-- Every operand of the instruction lies in the range its field admits. -/
def Instr.wellFormed : Instr → Bool
  | .cls | .ret => true
  | .jump nnn | .call nnn | .ldI nnn | .jumpV0 nnn => Operand.addrOk nnn.toNat
  | .seImm x kk | .sneImm x kk | .ldImm x kk | .addImm x kk | .rnd x kk =>
    Operand.regOk x.val && Operand.byteOk kk.toNat
  | .seReg x y | .ldReg x y | .orReg x y | .andReg x y | .xorReg x y | .addReg x y | .subReg x y | .shr x y
  | .subnReg x y | .shl x y | .sneReg x y => Operand.regOk x.val && Operand.regOk y.val
  | .draw x y n => Operand.regOk x.val && Operand.regOk y.val && Operand.nibbleOk n.toNat
  | .skp x | .sknp x | .ldVxDT x | .ldVxK x | .ldDT x | .ldST x | .addI x | .ldF x | .ldB x | .storeRegs x
  | .loadRegs x => Operand.regOk x.val

end Sys2Proof
end

