-- ==== Sys2Proof/Config.lean ====
section
/-! DEFINITION. What is fixed for the machine (R5), the parameters the host chooses (R6) and the free inputs
of each cycle (R36, R37). -/

namespace Sys2Proof

/-- What the host lets the core do after a fault that a policy covers (R6): `halt` halts the core, `goOn` is the
spec's `continue`. -/
inductive FaultPolicy where
  | halt
  | goOn
  deriving DecidableEq, Repr

/-- The number of bytes of `mem`, addresses 0..4095 (R5, R60). -/
def Config.memSize : Nat := 4096

/-- The font table is `mem[0..79]` (R5, R61). -/
def Config.fontSize : Nat := 80

/-- The program load address and reset entry point (R5, R42). -/
def Config.programBase : Nat := 0x200

/-- The largest program, 4096 - 0x200 bytes (R5, R76). -/
def Config.maxProgram : Nat := 3584

/-- The default of `UNKNOWN_OPCODE_POLICY` (R6, R246). -/
def Config.defaultUnknownPolicy : FaultPolicy := .goOn

/-- The default of `STACK_FAULT_POLICY` (R6, R247). -/
def Config.defaultStackPolicy : FaultPolicy := .halt

/-- FREE VALUE. The key snapshot of the n-th cycle where `State.inputs` names none: any 16 bits, under no law
(R36, R121, D20; log entry 1). It has no body, so nothing can be proved of its value. -/
opaque Config.freeKeys : Nat → BitVec 16

/-- FREE VALUE. The random byte of the n-th cycle where `State.inputs` names none: any byte, under no law
(R37, R178, D10; log entry 1). -/
opaque Config.freeRnd : Nat → Byte

end Sys2Proof
end

