-- ==== Sys2Proof/Machine/State.lean ====
section
/-! DEFINITION. The complete state of the core as plain data (R20), the inputs it is given (R36, R37), the parameters
the host fixes (R6), the reasons a step can stop, and the state right after reset (R42). -/

namespace Sys2Proof.Machine

/-- `mem`, 4096 bytes (R32, R60): the bytes that differ from the reset contents, as address and byte pairs in strictly
rising address order. What an unlisted address reads as is `Memory.initial`; `Memory.wf` states the form. -/
abbrev Memory := List Host.Cell

/-- `FB[0..31][0..63]`: 32 rows from the top, 64 columns from the left, true = lit (R33). -/
abbrev Framebuffer := Vector (Vector Bool 64) 32

/-- The faults a cycle can raise, codes 1 to 6 in this order (R240). Taking one is a next state (R244), not a stop. -/
inductive FaultKind where
  | unknownOpcode
  | stackOverflow
  | stackUnderflow
  | addressOutOfRange
  | fontWriteProtect
  | keyIndexOutOfRange
  deriving DecidableEq, Repr

/-- The `report` of a cycle that raised a fault: `(code, p, IR, detail)` (R244, C8); `detail` is the offending address
or index where R240 has one. -/
structure Report where
  kind : FaultKind
  pc : Word
  opcode : Word
  detail : Option Nat
  deriving DecidableEq, Repr

/-- The inputs of one cycle: the key snapshot, bit `k` = key `k` held (R36), and the random byte (R37). -/
structure Input where
  keys : BitVec 16
  rnd : Byte
  deriving DecidableEq, Repr

/-- Everything R20 names, then the outputs, inputs and parameters that the model keeps beside it. -/
structure State where
  /-- `V[0..15]` (R21). -/
  v : Vector Byte 16
  /-- `I`: 16 bits stored, bits 15..12 always 0 (R23, R41). -/
  index : Word
  /-- `pc` (R24). -/
  pc : Word
  /-- `stack[0..15]`, return addresses (R27). -/
  stack : Vector Word 16
  /-- `sp`: the count of return addresses held, 0..16 (R28); no other count exists (DESIGN CHOICE, safe; log entry 19). -/
  sp : Fin 17
  /-- `DT`, the delay timer (R30). -/
  dt : Byte
  /-- `ST`, the sound timer (R31). -/
  st : Byte
  /-- `mem` (R32). -/
  mem : Memory
  /-- `FB` (R33). -/
  fb : Framebuffer
  /-- `IR`, the last word fetched (R34). -/
  ir : Word
  /-- `fault_code`: the most recent fault, `none` = code 0 (R35, R240; DESIGN CHOICE, safe; log entry 19). -/
  faultCode : Option FaultKind
  /-- `fault_pc`: the address of the instruction that raised it (R35). -/
  faultPc : Word
  /-- `halted` (R35, R253). -/
  halted : Bool
  /-- The `report` output of the last cycle (R131, R244), kept in the state (DESIGN CHOICE, safe; log entry 9). -/
  report : Option Report
  /-- `UNKNOWN_OPCODE_POLICY`, a parameter no step changes (R6, R43; DESIGN CHOICE, safe; log entry 7). -/
  unknownPolicy : FaultPolicy
  /-- `STACK_FAULT_POLICY`, a parameter no step changes (R6, R43; DESIGN CHOICE, safe; log entry 7). -/
  stackPolicy : FaultPolicy
  /-- THE MODEL'S OWN: the inputs the host presents to this cycle and the next ones, in order (R36, R37); once the list
  is empty each cycle's inputs are free values (DESIGN CHOICE, safe; log entry 1). -/
  inputs : List Input
  /-- THE MODEL'S OWN: cycles since reset, the argument of the free inputs (log entry 1). -/
  cycle : Nat
  /-- THE MODEL'S OWN: `Load` is admitted, that is no cycle has run and no load been made since reset (R77;
  DESIGN CHOICE, safe; log entry 8). -/
  loadable : Bool
  /-- THE MODEL'S OWN: a cycle has run since reset, so the parameters are fixed (R284; DESIGN CHOICE, safe; log entry
  21). -/
  started : Bool
  deriving DecidableEq, Repr

/-- Reasons a step stops the machine. -/
inductive Fault where
  /-- Raised by `2nnn` with `sp = 16` and by `00EE` with `sp = 0` when STACK_FAULT_POLICY is `continue`: the spec calls
  the content undefined, gives that setting no meaning and asks for a fault (R247, U2). SAFE: the model stops where the
  hardware may run on. -/
  | stackFaultContinued (kind : FaultKind)
  deriving DecidableEq, Repr

/-- Reasons the model gives no meaning. -/
inductive Refusal where
  /-- Raised by an arm of `exec` whose instruction has no meaning yet (none in this model). SAFE: the model stops. -/
  | notModelled (mnemonic : String)
  /-- Raised by the host operation `State.load` after the first cycle or after an earlier load (R77, D15, U15); no step
  raises it. SAFE: the model stops. -/
  | loadOutsideWindow
  /-- Raised by the host operation `State.configure` once a cycle has run since reset (R284, R6); no step raises it. SAFE:
  the model stops. -/
  | configureAfterFirstCycle
  deriving DecidableEq, Repr

/-- The answer of the host operation `Load` (R75 to R77): the loaded core, the host-side error of R76 (the state stays
as it was), or no meaning (R77). -/
inductive LoadResult where
  | loaded (s : State)
  | programTooLarge
  | refused (r : Refusal)
  deriving DecidableEq, Repr

/-- The answer of the host operation that fixes the parameters (R284): the core with them, or no meaning. -/
inductive ConfigureResult where
  | configured (s : State)
  | refused (r : Refusal)
  deriving DecidableEq, Repr

/-- The machine right after reset, nothing loaded (R42, R280). The font is in `Memory.initial`. Every value but `pc`, the
font, `V0` and the framebuffer is the spec's decision D2, D3, D12 (DESIGN CHOICE, unsafe; log entry 3). Inputs: none
presented, so every cycle's are free. -/
def State.reset : State where
  v := Vector.replicate 16 0
  index := 0
  pc := 0x0200
  stack := Vector.replicate 16 0
  sp := 0
  dt := 0
  st := 0
  mem := []
  fb := Vector.replicate 32 (Vector.replicate 64 false)
  ir := 0
  faultCode := none
  faultPc := 0
  halted := false
  report := none
  unknownPolicy := Config.defaultUnknownPolicy
  stackPolicy := Config.defaultStackPolicy
  inputs := []
  cycle := 0
  loadable := true
  started := false

end Sys2Proof.Machine
end

