-- ==== Sys2Proof/Machine/Memory.lean ====
section
/-! DEFINITION. The memory `mem`: reset contents with the font table, byte reads and writes, and the range and font
checks that every memory instruction uses (R60 to R72). -/

namespace Sys2Proof.Machine

/-- The font table, 16 glyphs of 5 bytes in the order 0-9, A-F (R71). Glyphs 0 and 5 are the source's; the other 14 are
the published set (PRESUMED, unsafe; U9, D4; log entry 4). -/
def fontTable : List Byte :=
  [0xF0, 0x90, 0x90, 0x90, 0xF0] ++ [0x20, 0x60, 0x20, 0x20, 0x70] ++ [0xF0, 0x10, 0xF0, 0x80, 0xF0] ++
  [0xF0, 0x10, 0xF0, 0x10, 0xF0] ++ [0x90, 0x90, 0xF0, 0x10, 0x10] ++ [0xF0, 0x80, 0xF0, 0x10, 0xF0] ++
  [0xF0, 0x80, 0xF0, 0x90, 0xF0] ++ [0xF0, 0x10, 0x20, 0x40, 0x40] ++ [0xF0, 0x90, 0xF0, 0x90, 0xF0] ++
  [0xF0, 0x90, 0xF0, 0x10, 0xF0] ++ [0xF0, 0x90, 0xF0, 0x90, 0x90] ++ [0xE0, 0x90, 0xE0, 0x90, 0xE0] ++
  [0xF0, 0x80, 0x80, 0x80, 0xF0] ++ [0xE0, 0x90, 0x90, 0x90, 0xE0] ++ [0xF0, 0x80, 0xF0, 0x80, 0xF0] ++
  [0xF0, 0x80, 0xF0, 0x80, 0x80]

/-- What an unlisted address reads as: the reset contents, the font below 80 and 0x00 above (R42, R71; D3, DESIGN
CHOICE, unsafe; log entry 3). -/
def Memory.initial (a : Nat) : Byte := fontTable.getD a 0

/-- The canonical form: addresses strictly rising, all inside `mem`, and no entry equal to the reset contents. -/
abbrev Memory.wf (m : Memory) : Prop :=
  m.Pairwise (fun p q => p.1 < q.1) ∧ ∀ c ∈ m, c.1 < Config.memSize ∧ c.2 ≠ Memory.initial c.1

/-- The byte at an address (R66), for an address that a check has found inside `mem`. -/
def Memory.read : Memory → Nat → Byte
  | [], a => Memory.initial a
  | c :: rest, a => if c.1 = a then c.2 else Memory.read rest a

/-- An entry in front of a memory, left out where it says what an unlisted address reads as. -/
def Memory.cons (a : Nat) (b : Byte) (m : Memory) : Memory := if b = Memory.initial a then m else (a, b) :: m

/-- The memory with one byte stored (R9 `MemWrite`), for an address that a check has found inside `mem`. -/
def Memory.write : Memory → Nat → Byte → Memory
  | [], a, b => Memory.cons a b []
  | c :: rest, a, b =>
    if a < c.1 then Memory.cons a b (c :: rest)
    else if a = c.1 then Memory.cons a b rest
    else c :: Memory.write rest a b

/-- Bytes stored at ascending addresses from a base (R65). -/
def Memory.writeBlock : Memory → Nat → List Byte → Memory
  | m, _, [] => m
  | m, base, b :: rest => Memory.writeBlock (Memory.write m base b) (base + 1) rest

/-- The addresses `base .. base + count - 1`, unbounded integers that never wrap (R66). -/
def addressSpan (base count : Nat) : List Nat := List.range' base count

/-- The first address of the list outside `mem`, above 0x0FFF (R66, R68). -/
def firstOutOfRange (addrs : List Nat) : Option Nat := addrs.find? fun a => Config.memSize ≤ a

/-- The first address of the list inside the font table (R68). -/
def firstInFont (addrs : List Nat) : Option Nat := addrs.find? fun a => a < Config.fontSize

/-- `StoreCheck` (R68): the fault a store to these addresses raises, with the offending address, or `none` (D5, D6:
DESIGN CHOICE, safe; log entry 16). -/
def storeCheck (addrs : List Nat) : Option (FaultKind × Nat) :=
  match firstOutOfRange addrs with
  | some a => some (.addressOutOfRange, a)
  | none => (firstInFont addrs).map fun a => (.fontWriteProtect, a)

/-- The bytes at a list of addresses, all read before anything is written, or the first address out of range (R66). -/
def Memory.readBlock (m : Memory) (addrs : List Nat) : Except Nat (List Byte) :=
  match firstOutOfRange addrs with
  | some a => .error a
  | none => .ok (addrs.map fun a => m.read a)

end Sys2Proof.Machine
end

