-- ==== Sys2Proof/Machine/Ops.lean ====
section
/-! DEFINITION. The named operations on the state: registers, the call stack, the inputs of a cycle, taking a fault
(R244 to R252), and the parts of a cycle around the instruction (R120 to R133). -/

namespace Sys2Proof.Machine

/-! ### Registers -/

/-- `V[x]` (R9, R21). -/
def State.reg (s : State) (x : Reg) : Byte := s.v[x.val]

/-- `V[x] <- b` (R9, R21). -/
def State.setReg (s : State) (x : Reg) (b : Byte) : State := { s with v := s.v.set x.val b }

/-- `V[0]..V[n-1]` take the bytes of the list, `V[i]` the i-th; the others keep theirs (R200). -/
def State.setLowRegs (s : State) (bytes : List Byte) : State :=
  { s with v := Vector.ofFn fun i : Reg => bytes.getD i.val (s.reg i) }

/-- `V[0]..V[n-1]` as a list (R198). -/
def State.lowRegs (s : State) (n : Nat) : List Byte := s.v.toList.take n

/-- `I <- w` (R9, R23). -/
def State.setIndex (s : State) (w : Word) : State := { s with index := w }

/-- `pc <- w` (R9, R24). -/
def State.setPc (s : State) (w : Word) : State := { s with pc := w }

/-- `DT <- b` (R30). -/
def State.setDT (s : State) (b : Byte) : State := { s with dt := b }

/-- `ST <- b` (R31). -/
def State.setST (s : State) (b : Byte) : State := { s with st := b }

/-- The memory replaced. -/
def State.setMem (s : State) (m : Memory) : State := { s with mem := m }

/-- The framebuffer replaced. -/
def State.setFb (s : State) (f : Framebuffer) : State := { s with fb := f }

/-- `skip` where the condition holds: `pc <- (pc + 2) & 0xFFFF` (R9, R25). -/
def State.skipIf (s : State) (c : Bool) : State := s.setPc (if c then s.pc + 2 else s.pc)

/-- The two fault policies replaced (R6). -/
def State.setPolicies (s : State) (unknown stack : FaultPolicy) : State :=
  { s with unknownPolicy := unknown, stackPolicy := stack }

/-! ### Call stack (R27, R28) -/

/-- The push of `2nnn`: `stack[sp] <- w`, then `sp + 1`; `none` when the stack is full (R28, R144). -/
def State.push (s : State) (w : Word) : Option State :=
  if h : s.sp.val < 16 then some { s with stack := s.stack.set s.sp.val w, sp := ⟨s.sp.val + 1, by omega⟩ } else none

/-- The pop of `00EE`: `sp - 1`, then `stack[sp]` is read; `none` when the stack is empty (R28, R146). The slot keeps its
content. -/
def State.pop (s : State) : Option (Word × State) :=
  if h : 0 < s.sp.val then
    some (s.stack[s.sp.val - 1], { s with sp := ⟨s.sp.val - 1, by omega⟩ })
  else none

/-! ### Inputs of the cycle (R36, R37, R121) -/

/-- The key snapshot and random byte of the cycle now running: those the host presents, else free values. -/
def State.input (s : State) : Input :=
  match s.inputs with
  | i :: _ => i
  | [] => ⟨Config.freeKeys s.cycle, Config.freeRnd s.cycle⟩

/-- `keys[k]` of this cycle (R9, R121). -/
def State.key (s : State) (k : Nat) : Bool := s.input.keys.getLsbD k

/-! ### Taking a fault (R244) -/

/-- Fault entry: the record and the report are written and, for a fatal fault, `halted` is set. `p` is the `pc` the cycle
started with (R244). Nothing else changes; `pc` is not redirected. -/
def State.recordFault (s : State) (kind : FaultKind) (p : Word) (detail : Option Nat) (fatal : Bool) : State :=
  { s with faultCode := some kind, faultPc := p, report := some ⟨kind, p, s.ir, detail⟩, halted := s.halted || fatal }

/-- A fatal fault of the instruction being executed, whose address is `pc - 2` because the advance has been made (R123,
R252; DEDUCED, safe; log entry 18). -/
def State.raise (s : State) (kind : FaultKind) (detail : Option Nat) : State :=
  s.recordFault kind (s.pc - 2) detail true

/-- A stack fault (R247): fatal under STACK_FAULT_POLICY = halt; under `continue` the spec gives no meaning and asks for a
fault (U2, log entry 6). -/
def State.raiseStackFault (s : State) (kind : FaultKind) : Host.Outcome State Fault Refusal :=
  match s.stackPolicy with
  | .halt => .next (s.raise kind none)
  | .goOn => .fault (.stackFaultContinued kind)

/-- `UnknownOpcode` (R126, R246): recorded; fatal only under UNKNOWN_OPCODE_POLICY = halt. -/
def State.raiseUnknownOpcode (s : State) : State :=
  s.recordFault .unknownOpcode (s.pc - 2) none (s.unknownPolicy == .halt)

/-- The first fetch address above 0x0FFF (R250; D5, DESIGN CHOICE, safe; log entries 10 and 16). -/
def State.fetchFaultAddress (s : State) : Nat := if 0x0FFF < s.pc.toNat then s.pc.toNat else s.pc.toNat + 1

/-- A fetch fault (R67, R250): fatal, and neither `IR` nor `pc` changes. -/
def State.raiseFetchFault (s : State) : State :=
  s.recordFault .addressOutOfRange s.pc (some s.fetchFaultAddress) true

/-! ### Memory accesses of an instruction -/

/-- The bytes at `I .. I + count - 1`, or the first address out of range (R66). -/
def State.loadBytes (s : State) (count : Nat) : Except Nat (List Byte) :=
  s.mem.readBlock (addressSpan s.index.toNat count)

/-- A store of bytes at `I` and up: all of them, or a fault and none (R68). -/
def State.storeBytes (s : State) (bytes : List Byte) : State :=
  match storeCheck (addressSpan s.index.toNat bytes.length) with
  | some (kind, a) => s.raise kind (some a)
  | none => s.setMem (s.mem.writeBlock s.index.toNat bytes)

/-! ### The cycle around the instruction (R120) -/

/-- Step 2: the word at `pc`, big-endian, or `none` when a fetch address is outside `mem` (R63, R64, R67). -/
def State.fetch (s : State) : Option Word :=
  if 0x0FFE < s.pc.toNat then none
  else some (wordOfBytes (s.mem.read s.pc.toNat) (s.mem.read (s.pc.toNat + 1)))

/-- Steps 2 and 3 after a successful fetch: `IR` takes the word, `pc` is advanced by 2 modulo 65536 (D7, DESIGN CHOICE,
unsafe for an odd `pc`; log entry 13), and this cycle has raised no fault yet (R122, R123). -/
def State.afterFetch (s : State) (w : Word) : State := { s with ir := w, pc := s.pc + 2, report := none }

/-- A timer's tick: down by 1, sticking at 0 (R30, R127). -/
def tickTimer (b : Byte) : Byte := if b = 0 then 0 else b - 1

/-- Step 6: both timers, independently (R127). -/
def State.tick (s : State) : State := { s with dt := tickTimer s.dt, st := tickTimer s.st }

/-- The next cycle gets its own inputs (R36), `Load` is admitted no more (R77), and the parameters are fixed (R284). -/
def State.nextInputs (s : State) : State :=
  { s with inputs := s.inputs.tail, cycle := s.cycle + 1, loadable := false, started := true }

/-- The end of a cycle: the timers tick unless the core is halted, by this cycle's fatal fault or before it (R128; D13,
DESIGN CHOICE, safe; log entry 20). -/
def State.endCycle (s : State) : State := (if s.halted then s else s.tick).nextInputs

/-- The cycle of a halted core: nothing changes and there is no report (R133; D13, DESIGN CHOICE, safe; log entry 5). -/
def State.haltedCycle (s : State) : State := ({ s with report := none } : State).endCycle

/-- The cycle whose fetch faults (R250, R252). -/
def State.fetchFaultCycle (s : State) : State := s.raiseFetchFault.endCycle

/-- The cycle that fetched an unknown word (R126). -/
def State.unknownCycle (s : State) (w : Word) : State := (s.afterFetch w).raiseUnknownOpcode.endCycle

/-- The end of a cycle from what the instruction answered (R120 steps 5 and 6, R125). -/
def finishCycle (o : Host.Outcome State Fault Refusal) : Host.Outcome State Fault Refusal :=
  match o with
  | .next t => .next t.endCycle
  | .fault r => .fault r
  | .refused r => .refused r

/-- A word stored at the address the next cycle fetches from, high byte first (R63). A core that would not fetch there is
given what the fetch needs: `halted` clear, and the entry point as `pc` where `pc` lies outside `mem`. -/
def State.placeWord (s : State) (w : Word) : State :=
  let p : Word := if 0x0FFE < s.pc.toNat then BitVec.ofNat 16 Config.programBase else s.pc
  { s with pc := p, halted := false, mem := s.mem.writeBlock p.toNat [highByte w, lowByte w] }

end Sys2Proof.Machine
end

