-- ==== Sys2Proof/Machine/Operands.lean ====
section
/-! DEFINITION. The operand computations of the instructions (R93): targets, addresses, decimal digits, keys, and the
cells a sprite touches. -/

namespace Sys2Proof.Machine

/-- An address constant as a 16-bit value (R93: no sign extension, no scaling). -/
def addrWord (nnn : BitVec 12) : Word := nnn.setWidth 16

/-- The target of `Bnnn`: `(nnn + zext_16(V[0])) & 0x0FFF` (R142, C1). -/
def jumpV0Target (nnn : BitVec 12) (v0 : Byte) : Word := (addrWord nnn + v0.setWidth 16) &&& 0x0FFF

/-- The sum of `Fx1E`: `(I + zext_16(V[x])) & 0x0FFF` (R192; D8, DESIGN CHOICE, unsafe; log entry
15). -/
def indexSum (i : Word) (b : Byte) : Word := (i + b.setWidth 16) &&& 0x0FFF

/-- The glyph address of `Fx29`: `zext_16(V[x]) * 5`, the whole byte (R194). -/
def glyphAddress (b : Byte) : Word := b.setWidth 16 * 5

/-- Hundreds, tens and ones of a byte, one digit a byte (R196). -/
def bcdDigits (b : Byte) : List Byte :=
  [BitVec.ofNat 8 (b.toNat / 100), BitVec.ofNat 8 (b.toNat / 10 % 10), BitVec.ofNat 8 (b.toNat % 10)]

/-- The smallest `k` in 0..15 with `keys[k] = 1` (R224), for a snapshot that is not 0. -/
def lowestKey (keys : BitVec 16) : Nat := ((List.range 16).find? fun k => keys.getLsbD k).getD 0

/-- One cell of the framebuffer: row 0..31, column 0..63 (R33). -/
abbrev FbCell := Fin 32 × Fin 64

/-- The cell of sprite row `r`, pixel `c`, both sums reduced, so that the sprite wraps on both axes (R212). -/
def spriteCell (vx vy : Byte) (r c : Nat) : FbCell := (Fin.ofNat 32 (vy.toNat + r), Fin.ofNat 64 (vx.toNat + c))

/-- The cells under the set bits of one sprite row; bit 7 is the leftmost pixel (R212). -/
def spriteRowCells (vx vy : Byte) (r : Nat) (b : Byte) : List FbCell :=
  ((List.range 8).filter fun c => b.getLsbD (7 - c)).map fun c => spriteCell vx vy r c

/-- The cells under the set bits of the sprite rows from row `r` on, in drawing order (R212). -/
def spriteCells (vx vy : Byte) : Nat → List Byte → List FbCell
  | _, [] => []
  | r, b :: rest => spriteRowCells vx vy r b ++ spriteCells vx vy (r + 1) rest

/-- `FB[row][col]` (R33). -/
def Framebuffer.cell (f : Framebuffer) (p : FbCell) : Bool := f[p.1.val][p.2.val]

/-- The framebuffer with one cell inverted (R212). -/
def Framebuffer.toggle (f : Framebuffer) (p : FbCell) : Framebuffer :=
  f.set p.1.val (f[p.1.val].set p.2.val (!f.cell p))

/-- The framebuffer with every cell 0 (R210). -/
def Framebuffer.clear : Framebuffer := Vector.replicate 32 (Vector.replicate 64 false)

end Sys2Proof.Machine
end

