-- ==== Sys2Proof/Machine/Flags.lean ====
section
/-! DEFINITION. What the flag-writing instructions leave in `VF` (R38): carry, not-borrow, the bit shifted out, the draw
collision. -/

namespace Sys2Proof.Machine

/-- A flag value as the byte `VF` takes: 1 or 0 (R38). -/
def flagByte (c : Bool) : Byte := if c then 1 else 0

/-- `VF <- flag` (R38). -/
def State.setFlag (s : State) (c : Bool) : State := s.setReg vF (flagByte c)

/-- The carry of `8xy4`: the unwrapped sum exceeds 255 (R170). -/
def carryOut (a b : Byte) : Bool := 255 < a.toNat + b.toNat

/-- The not-borrow of `a - b` in `8xy5`, `8xy7`: `a >= b` (R172, R175). -/
def notBorrow (a b : Byte) : Bool := b.toNat ≤ a.toNat

/-- The bit `8xy6` shifts out: bit 0 (R174). -/
def shiftedOutRight (a : Byte) : Bool := a.getLsbD 0

/-- The bit `8xyE` shifts out: bit 7 (R176). -/
def shiftedOutLeft (a : Byte) : Bool := a.getLsbD 7

/-- Cells inverted one after the other, and whether any of them was lit before its inversion (R212: no early exit). -/
def toggleAll (f : Framebuffer) : List FbCell → Bool → Framebuffer × Bool
  | [], collision => (f, collision)
  | p :: rest, collision => toggleAll (f.toggle p) rest (collision || f.cell p)

/-- The XOR blit of a sprite: the new framebuffer and the collision (R212). -/
def drawSprite (f : Framebuffer) (vx vy : Byte) (rows : List Byte) : Framebuffer × Bool :=
  toggleAll f (spriteCells vx vy 0 rows) false

end Sys2Proof.Machine
end

