-- ==== Sys2Proof/Machine/Alu.lean ====
section
/-! DEFINITION. Register loads, arithmetic, logic, shifts and random (spec/42_alu.md). None of them can fault; `pc` keeps
the advance by 2. -/

namespace Sys2Proof.Machine

/-- `6xkk`: `V[x] <- kk` (R160). -/
def execLdImm (x : Reg) (kk : Byte) (s : State) : Host.Outcome State Fault Refusal :=
  .next (s.setReg x kk)

/-- `7xkk`: `V[x] <- (V[x] + kk) & 0xFF`; the carry is lost (R162). -/
def execAddImm (x : Reg) (kk : Byte) (s : State) : Host.Outcome State Fault Refusal :=
  .next (s.setReg x (s.reg x + kk))

/-- `8xy0`: `V[x] <- V[y]` (R164). -/
def execLdReg (x y : Reg) (s : State) : Host.Outcome State Fault Refusal :=
  .next (s.setReg x (s.reg y))

/-- `8xy1`: `V[x] <- V[x] | V[y]` (R166). -/
def execOrReg (x y : Reg) (s : State) : Host.Outcome State Fault Refusal :=
  .next (s.setReg x (s.reg x ||| s.reg y))

/-- `8xy2`: `V[x] <- V[x] & V[y]` (R167). -/
def execAndReg (x y : Reg) (s : State) : Host.Outcome State Fault Refusal :=
  .next (s.setReg x (s.reg x &&& s.reg y))

/-- `8xy3`: `V[x] <- V[x] ^ V[y]` (R168). -/
def execXorReg (x y : Reg) (s : State) : Host.Outcome State Fault Refusal :=
  .next (s.setReg x (s.reg x ^^^ s.reg y))

/-- `8xy4`: both sources read, the wrapped sum written, then the carry into `VF` (R170, R182). -/
def execAddReg (x y : Reg) (s : State) : Host.Outcome State Fault Refusal :=
  .next ((s.setReg x (s.reg x + s.reg y)).setFlag (carryOut (s.reg x) (s.reg y)))

/-- `8xy5`: `Vx - Vy` wrapped, then not-borrow into `VF` (R172, R182). -/
def execSubReg (x y : Reg) (s : State) : Host.Outcome State Fault Refusal :=
  .next ((s.setReg x (s.reg x - s.reg y)).setFlag (notBorrow (s.reg x) (s.reg y)))

/-- `8xy6`: bit 0 into `VF` first, then `V[x]`, read again, shifted right by one; `y` is not read (R174, R182, R97; for
`x = F` D11, DESIGN CHOICE, unsafe; log entry 14). -/
def execShr (x _y : Reg) (s : State) : Host.Outcome State Fault Refusal :=
  let t := s.setFlag (shiftedOutRight (s.reg x))
  .next (t.setReg x (t.reg x >>> 1))

/-- `8xy7`: `Vy - Vx` wrapped, then not-borrow into `VF` (R175, R182). -/
def execSubnReg (x y : Reg) (s : State) : Host.Outcome State Fault Refusal :=
  .next ((s.setReg x (s.reg y - s.reg x)).setFlag (notBorrow (s.reg y) (s.reg x)))

/-- `8xyE`: bit 7 into `VF` first, then `V[x]`, read again, shifted left by one; `y` is not read (R176, R182, R97; for
`x = F` D11, DESIGN CHOICE, unsafe; log entry 14). -/
def execShl (x _y : Reg) (s : State) : Host.Outcome State Fault Refusal :=
  let t := s.setFlag (shiftedOutLeft (s.reg x))
  .next (t.setReg x (t.reg x <<< 1))

/-- `Cxkk`: `V[x] <- rnd & kk` with this cycle's random byte (R178). -/
def execRnd (x : Reg) (kk : Byte) (s : State) : Host.Outcome State Fault Refusal :=
  .next (s.setReg x (s.input.rnd &&& kk))

end Sys2Proof.Machine
end

