-- ==== Sys2Proof/Machine/Control.lean ====
section
/-! DEFINITION. Control transfer (spec/41_control_flow.md). `pc` on entry is the instruction's address plus 2 (R123). -/

namespace Sys2Proof.Machine

/-- `1nnn`: `pc <- nnn` (R140). -/
def execJump (nnn : BitVec 12) (s : State) : Host.Outcome State Fault Refusal :=
  .next (s.setPc (addrWord nnn))

/-- `Bnnn`: `pc <- (nnn + V[0]) & 0x0FFF` (R142). -/
def execJumpV0 (nnn : BitVec 12) (s : State) : Host.Outcome State Fault Refusal :=
  .next (s.setPc (jumpV0Target nnn (s.reg 0)))

/-- `2nnn`: StackOverflow if full, else the advanced `pc` is pushed and `pc <- nnn` (R144). -/
def execCall (nnn : BitVec 12) (s : State) : Host.Outcome State Fault Refusal :=
  match s.push s.pc with
  | some t => .next (t.setPc (addrWord nnn))
  | none => s.raiseStackFault .stackOverflow

/-- `00EE`: StackUnderflow if empty, else `pc` takes the popped value (R146). -/
def execRet (s : State) : Host.Outcome State Fault Refusal :=
  match s.pop with
  | some (w, t) => .next (t.setPc w)
  | none => s.raiseStackFault .stackUnderflow

/-- `3xkk`: skip if `V[x] = kk` (R150). -/
def execSeImm (x : Reg) (kk : Byte) (s : State) : Host.Outcome State Fault Refusal :=
  .next (s.skipIf (s.reg x == kk))

/-- `4xkk`: skip if `V[x] != kk` (R151). -/
def execSneImm (x : Reg) (kk : Byte) (s : State) : Host.Outcome State Fault Refusal :=
  .next (s.skipIf (s.reg x != kk))

/-- `5xy0`: skip if `V[x] = V[y]` (R152). -/
def execSeReg (x y : Reg) (s : State) : Host.Outcome State Fault Refusal :=
  .next (s.skipIf (s.reg x == s.reg y))

/-- `9xy0`: skip if `V[x] != V[y]` (R153). -/
def execSneReg (x y : Reg) (s : State) : Host.Outcome State Fault Refusal :=
  .next (s.skipIf (s.reg x != s.reg y))

end Sys2Proof.Machine
end

