-- ==== Sys2Proof/Machine/Display.lean ====
section
/-! DEFINITION. The display framebuffer instructions (spec/44_display.md). -/

namespace Sys2Proof.Machine

/-- `00E0`: every cell 0; `VF` is not written (R210). -/
def execCls (s : State) : Host.Outcome State Fault Refusal :=
  .next (s.setFb Framebuffer.clear)

/-- `Dxyn`: coordinates and all `n` bytes are read, the sprite is XORed in, wrapping on both axes, and `VF` takes the
collision last; a read out of range changes neither `FB` nor `VF` (R212; for `x = F` or `y = F` D11, DESIGN CHOICE,
unsafe; log entry 14). -/
def execDraw (x y : Reg) (n : BitVec 4) (s : State) : Host.Outcome State Fault Refusal :=
  match s.loadBytes n.toNat with
  | .error a => .next (s.raise .addressOutOfRange (some a))
  | .ok rows =>
    let d := drawSprite s.fb (s.reg x) (s.reg y) rows
    .next ((s.setFb d.1).setFlag d.2)

end Sys2Proof.Machine
end

