-- ==== Sys2Proof/Machine/IndexMemory.lean ====
section
/-! DEFINITION. The index register, BCD, block store and load (spec/43_index_memory.md). No access changes `I`. -/

namespace Sys2Proof.Machine

/-- `Annn`: `I <- nnn` (R190). -/
def execLdI (nnn : BitVec 12) (s : State) : Host.Outcome State Fault Refusal :=
  .next (s.setIndex (addrWord nnn))

/-- `Fx1E`: `I <- (I + V[x]) & 0x0FFF`; `VF` is not written (R192). -/
def execAddI (x : Reg) (s : State) : Host.Outcome State Fault Refusal :=
  .next (s.setIndex (indexSum s.index (s.reg x)))

/-- `Fx29`: `I <- V[x] * 5` (R194). -/
def execLdF (x : Reg) (s : State) : Host.Outcome State Fault Refusal :=
  .next (s.setIndex (glyphAddress (s.reg x)))

/-- `Fx33`: the three decimal digits of `V[x]` at `I`, `I + 1`, `I + 2`, or a store fault and nothing (R196). -/
def execLdB (x : Reg) (s : State) : Host.Outcome State Fault Refusal :=
  .next (s.storeBytes (bcdDigits (s.reg x)))

/-- `Fx55`: `V[0]..V[x-1]` at `I .. I + x - 1`, or a store fault and nothing; `x = 0` stores nothing (R198). -/
def execStoreRegs (x : Reg) (s : State) : Host.Outcome State Fault Refusal :=
  .next (s.storeBytes (s.lowRegs x.val))

/-- `Fx65`: `V[0]..V[x-1]` from `I .. I + x - 1`, all read first; `x = 0` loads nothing (R200). -/
def execLoadRegs (x : Reg) (s : State) : Host.Outcome State Fault Refusal :=
  match s.loadBytes x.val with
  | .ok bytes => .next (s.setLowRegs bytes)
  | .error a => .next (s.raise .addressOutOfRange (some a))

end Sys2Proof.Machine
end

