-- ==== Sys2Proof/Machine/KeysTimers.lean ====
section
/-! DEFINITION. Key input and timer instructions (spec/45_keys_timers.md). `keys` is this cycle's snapshot (R121). -/

namespace Sys2Proof.Machine

/-- `Ex9E`: KeyIndexOutOfRange if `V[x] > 15` (D9, DESIGN CHOICE, safe; log entry 16), else skip if the key is held
(R220). -/
def execSkp (x : Reg) (s : State) : Host.Outcome State Fault Refusal :=
  if 15 < (s.reg x).toNat then .next (s.raise .keyIndexOutOfRange (some (s.reg x).toNat))
  else .next (s.skipIf (s.key (s.reg x).toNat))

/-- `ExA1`: KeyIndexOutOfRange if `V[x] > 15` (D9, DESIGN CHOICE, safe; log entry 16), else skip if the key is not held
(R222). -/
def execSknp (x : Reg) (s : State) : Host.Outcome State Fault Refusal :=
  if 15 < (s.reg x).toNat then .next (s.raise .keyIndexOutOfRange (some (s.reg x).toNat))
  else .next (s.skipIf (!s.key (s.reg x).toNat))

/-- `Fx07`: `V[x] <- DT`, before this cycle's tick (R226). -/
def execLdVxDT (x : Reg) (s : State) : Host.Outcome State Fault Refusal :=
  .next (s.setReg x s.dt)

/-- `Fx0A`: no key held puts `pc` back to this instruction; else `V[x]` takes the lowest held key (R224). -/
def execLdVxK (x : Reg) (s : State) : Host.Outcome State Fault Refusal :=
  .next (if s.input.keys = 0 then s.setPc (s.pc - 2) else s.setReg x (BitVec.ofNat 8 (lowestKey s.input.keys)))

/-- `Fx15`: `DT <- V[x]`; this cycle's tick comes after (R228). -/
def execLdDT (x : Reg) (s : State) : Host.Outcome State Fault Refusal :=
  .next (s.setDT (s.reg x))

/-- `Fx18`: `ST <- V[x]`; this cycle's tick comes after (R230). -/
def execLdST (x : Reg) (s : State) : Host.Outcome State Fault Refusal :=
  .next (s.setST (s.reg x))

end Sys2Proof.Machine
end

