-- ==== Sys2Proof/Machine/Step.lean ====
section
/-! DEFINITION. One cycle of the core (R120), and the instruction placed where the next cycle fetches. -/

namespace Sys2Proof.Machine

/-- `Cycle` (R120): the halted identity (R133), the fetch fault (R67), the unknown word (R126), or the decoded instruction
run on the fetched and advanced state, then the end of the cycle (R125, R127). -/
def step (s : State) : Host.Outcome State Fault Refusal :=
  if s.halted then .next s.haltedCycle
  else
    match s.fetch with
    | none => .next s.fetchFaultCycle
    | some w =>
      match decodeWord w with
      | none => .next (s.unknownCycle w)
      | some i => finishCycle (exec i (s.afterFetch w))

/-- The state with an instruction word of the opcode table stored where `step` fetches next, high byte at the lower address
(R63, R90). It stands for the host's load (log entry 2). -/
def State.withFetchWord (s : State) (nbits w : Nat) : State := s.placeWord (BitVec.ofNat 16 (w % 2 ^ nbits))

end Sys2Proof.Machine
end

