-- ==== Sys2Proof/Machine/HostOps.lean ====
section
/-! DEFINITION. What the host can do to the core and what it sees of it (R131, R284): reset, load, the parameters, the
inputs, and the outputs. None of it is part of a step. -/

namespace Sys2Proof.Machine

/-- The `reset` input: every piece of state to its reset value (R280, R282). The parameters are not state and stay (R43);
the presented inputs and the cycle number go on, so that later free inputs are new ones (DESIGN CHOICE, safe;
log entry 11). -/
def State.hostReset (s : State) : State :=
  { State.reset with
    unknownPolicy := s.unknownPolicy, stackPolicy := s.stackPolicy, inputs := s.inputs, cycle := s.cycle }

/-- `Load(program_bytes)`: refused outside its window (R77; D15, DESIGN CHOICE, safe; log entry 8), rejected when too large (R76), else the bytes are copied from
0x200 up (R75). -/
def State.load (s : State) (program : List Byte) : LoadResult :=
  if !s.loadable then .refused .loadOutsideWindow
  else if Config.maxProgram < program.length then .programTooLarge
  else .loaded { s with mem := s.mem.writeBlock Config.programBase program, loadable := false }

/-- The parameters, which the host fixes before the first cycle (R6, R284): refused by name once a cycle has run since
reset, where the spec gives the operation no meaning (DESIGN CHOICE, safe; log entry 21). A load does not close the window. -/
def State.configure (s : State) (unknown stack : FaultPolicy) : ConfigureResult :=
  if s.started then .refused .configureAfterFirstCycle else .configured (s.setPolicies unknown stack)

/-- The inputs the host presents to the coming cycles (R36, R37). -/
def State.present (s : State) (inputs : List Input) : State := { s with inputs := inputs }

/-- `fb_out` (R131). -/
def State.fbOut (s : State) : Framebuffer := s.fb
/-- `diag_pc` (R131). -/
def State.diagPc (s : State) : Word := s.pc
/-- `diag_opcode` (R131). -/
def State.diagOpcode (s : State) : Word := s.ir
/-- `diag_index` (R131). -/
def State.diagIndex (s : State) : Word := s.index
/-- `sound_active`: `ST > 0` (R131, R232). -/
def State.soundActive (s : State) : Bool := 0 < s.st.toNat

/-- The 3-bit code of a fault (R240). -/
def FaultKind.code : FaultKind → BitVec 3
  | .unknownOpcode => 1
  | .stackOverflow => 2
  | .stackUnderflow => 3
  | .addressOutOfRange => 4
  | .fontWriteProtect => 5
  | .keyIndexOutOfRange => 6

/-- `fault_code` as the host reads it, 0 where there has been none (R35, R131, R240). -/
def State.faultCodeOut (s : State) : BitVec 3 :=
  match s.faultCode with
  | none => 0
  | some k => k.code

end Sys2Proof.Machine
end

