-- ==== Sys2Proof/Safety.lean ====
section
/-! DEFINITION. What counts as a good state, the invariant of the machine, and the tables of the spec that say which
instruction may change which piece of state (R22, R23, R27, R33, R62, R240), in the terms the claims use. -/

namespace Sys2Proof.Machine

/-- A halted core has gone wrong and is never a good final state (R133, R253): a safe state is one that is not halted. -/
abbrev State.Safe (s : State) : Prop := s.halted = false

/-- A run of `n` cycles that ends in a safe state (R253). A fault, a refusal and a halted core are all unsafe. -/
def SafeRun (n : Nat) (s : State) : Prop := ∃ t, Sys2Proof.core.run n s = .next t ∧ t.Safe

/-- The two states agree on every piece of state of R20; the report, the inputs and the parameters are not in it (R43,
R131). -/
def State.sameCore (s t : State) : Prop :=
  t.v = s.v ∧ t.index = s.index ∧ t.pc = s.pc ∧ t.stack = s.stack ∧ t.sp = s.sp ∧ t.dt = s.dt ∧ t.st = s.st ∧
  t.mem = s.mem ∧ t.fb = s.fb ∧ t.ir = s.ir ∧ t.faultCode = s.faultCode ∧ t.faultPc = s.faultPc ∧ t.halted = s.halted

/-- The font table reads as reset wrote it (R69, R72). -/
abbrev Memory.fontIntact (m : Memory) : Prop := ∀ a < Config.fontSize, m.read a = Memory.initial a

/-- The invariant of the machine. -/
structure State.Inv (s : State) : Prop where
  /-- The memory is in its canonical form. -/
  memWf : s.mem.wf
  /-- The font bytes are never overwritten (R69). -/
  font : s.mem.fontIntact
  /-- `I` holds a value in 0..4095: bits 15..12 are 0 (R23, R41). -/
  indexRange : s.index.toNat ≤ 0x0FFF
  /-- `pc` never passes 0x1002, so its 16-bit wrap takes no effect (R25, R155). -/
  pcRange : s.pc.toNat ≤ 0x1002
  /-- A return address never passes 0x1000 (R144). -/
  stackRange : ∀ k : Fin 16, s.stack[k.val].toNat ≤ 0x1000
  /-- A halted core's record names a fault that is fatal under the policies (R240, R253). -/
  haltedRecord : s.halted = true → ∃ k, s.faultCode = some k ∧ (k = .unknownOpcode → s.unknownPolicy = .halt)
  /-- Before the first fault the record is clear (R35, R42). -/
  noRecord : s.faultCode = none → s.faultPc = 0 ∧ s.halted = false
  /-- `Load` is admitted only before the first cycle (R77, R284). -/
  loadWindow : s.loadable = true → s.started = false

/-- The instruction may write `V[r]` (R22). -/
def mayWriteReg : Instr → Reg → Bool
  | .ldImm x _, r | .addImm x _, r | .ldReg x _, r | .orReg x _, r | .andReg x _, r | .xorReg x _, r | .rnd x _, r
  | .ldVxDT x, r | .ldVxK x, r => r == x
  | .addReg x _, r | .subReg x _, r | .shr x _, r | .subnReg x _, r | .shl x _, r => r == x || r == vF
  | .draw _ _ _, r => r == vF
  | .loadRegs x, r => r.val < x.val
  | .cls, _ | .ret, _ | .jump _, _ | .call _, _ | .seImm _ _, _ | .sneImm _ _, _ | .seReg _ _, _ | .sneReg _ _, _
  | .ldI _, _ | .jumpV0 _, _ | .skp _, _ | .sknp _, _ | .ldDT _, _ | .ldST _, _ | .addI _, _ | .ldF _, _ | .ldB _, _
  | .storeRegs _, _ => false

/-- The instruction may write `I` (R23): `Annn`, `Fx1E`, `Fx29`. -/
def mayWriteIndex : Instr → Bool
  | .ldI _ | .addI _ | .ldF _ => true
  | _ => false

/-- The instruction may write `stack` or `sp` (R27, R28): `2nnn`, `00EE`. -/
def mayWriteStack : Instr → Bool
  | .call _ | .ret => true
  | _ => false

/-- The instruction may write the framebuffer (R33): `00E0`, `Dxyn`. -/
def mayWriteFb : Instr → Bool
  | .cls | .draw _ _ _ => true
  | _ => false

/-- The instruction may change `pc` beyond the advance by 2 (R24). -/
def mayWritePc : Instr → Bool
  | .ret | .jump _ | .call _ | .seImm _ _ | .sneImm _ _ | .seReg _ _ | .sneReg _ _ | .jumpV0 _ | .skp _ | .sknp _
  | .ldVxK _ => true
  | _ => false

/-- The addresses the instruction stores to when it raises no fault (R62): the span its meaning hands to `StoreCheck`. -/
def storeAddresses (i : Instr) (s : State) : List Nat :=
  match i with
  | .ldB x => addressSpan s.index.toNat (bcdDigits (s.reg x)).length
  | .storeRegs x => addressSpan s.index.toNat (s.lowRegs x.val).length
  | _ => []

/-- The faults the instruction can raise (R240). -/
def faultsOf : Instr → List FaultKind
  | .call _ => [.stackOverflow]
  | .ret => [.stackUnderflow]
  | .draw _ _ _ | .loadRegs _ => [.addressOutOfRange]
  | .ldB _ | .storeRegs _ => [.addressOutOfRange, .fontWriteProtect]
  | .skp _ | .sknp _ => [.keyIndexOutOfRange]
  | _ => []

/-- The instruction reads the key snapshot (R36). -/
def readsKeys : Instr → Bool
  | .skp _ | .sknp _ | .ldVxK _ => true
  | _ => false

/-- The instruction reads the random byte (R37). -/
def readsRnd : Instr → Bool
  | .rnd _ _ => true
  | _ => false

/-- A sprite of `n` rows at `I`, drawn at (`vx`, `vy`), has a set bit over the cell (R212): some row `r` and pixel `c`
with bit `7 - c` of `mem[I + r]` set land there after wrapping on both axes. -/
def spriteCovers (s : State) (vx vy : Byte) (n : Nat) (p : FbCell) : Prop :=
  ∃ r c, r < n ∧ c < 8 ∧ (s.mem.read (s.index.toNat + r)).getLsbD (7 - c) = true ∧
    p.1.val = (vy.toNat + r) % 32 ∧ p.2.val = (vx.toNat + c) % 64

end Sys2Proof.Machine
end

