-- ==== Sys2Proof/Certificates/Slice0/Obligations.lean ====
section
/-! DEFINITION. The statements about the core, from the numbered rules of spec/. Each docstring names the rules it
formalises or rests on; where a rule is the spec's own decision its D-number is named. A frame is written as
`t = { s with f := t.f }`: nothing but the field `f` differs. -/

open Sys2Proof Sys2Proof.Machine

/-! ### Encoding -/

/-- R92, R95: every instruction is well formed, and decoding its word gives it back, with every operand at every value
of its field. -/
def Obligations.DecodeOfEncode : Prop :=
  ∀ i : Instr, i.wellFormed = true ∧ decodeWord (encode i) = some i

/-- R92, R95: a word that decodes is the word of the instruction it decodes to, so no bit of a word is lost. At `8xy6`
and `8xyE` that is the model's choice to keep the `y` field in the instruction, where R97 has all 16 values of `y`
decode to the same instruction (log entry 19, DESIGN CHOICE); `ShiftsByOne` says that `y` has no effect. -/
def Obligations.EncodeOfDecode : Prop :=
  ∀ (w : Word) (i : Instr), decodeWord w = some i → encode i = w

/-- R95: the opcode map. A word is an instruction of a row exactly when `op & mask = value`; the 34 rows are pairwise
disjoint, and every instruction has its row. -/
def Obligations.OpcodeMapSelects : Prop :=
  opcodeMap.length = 34 ∧
  (∀ op : Word, ∀ row ∈ opcodeMap,
    (op &&& row.mask = row.value ↔ ∃ i, decodeWord op = some i ∧ i.mnemonic = row.mnemonic)) ∧
  (∀ i : Instr, ∃ row ∈ opcodeMap, row.mnemonic = i.mnemonic) ∧
  opcodeMap.Pairwise (fun a b => ∀ op : Word, ¬(op &&& a.mask = a.value ∧ op &&& b.mask = b.value))

/-- R98: the unknown words are exactly those of its table, group by group. -/
def Obligations.UnknownWords : Prop :=
  ∀ op : Word, decodeWord op = none ↔
    (op.toNat / 0x1000 = 0x0 ∧ op.toNat ≠ 0x00E0 ∧ op.toNat ≠ 0x00EE) ∨
    (op.toNat / 0x1000 = 0x5 ∧ op.toNat % 0x10 ≠ 0) ∨
    (op.toNat / 0x1000 = 0x9 ∧ op.toNat % 0x10 ≠ 0) ∨
    (op.toNat / 0x1000 = 0x8 ∧ op.toNat % 0x10 ∈ [0x8, 0x9, 0xA, 0xB, 0xC, 0xD, 0xF]) ∨
    (op.toNat / 0x1000 = 0xE ∧ op.toNat % 0x100 ∉ [0x9E, 0xA1]) ∨
    (op.toNat / 0x1000 = 0xF ∧ op.toNat % 0x100 ∉ [0x07, 0x0A, 0x15, 0x18, 0x1E, 0x29, 0x33, 0x55, 0x65])

/-- R95, T-DEC-1..12: words written out from the encodings decode to what they stand for, one or more of each format. -/
def Obligations.SampleWordsDecode : Prop :=
  decodeWord 0b0000000011100000 = some .cls ∧ decodeWord 0b0000000011101110 = some .ret ∧
  decodeWord 0b0001101010111100 = some (.jump 0xABC) ∧ decodeWord 0b0011101001111111 = some (.seImm 0xA 0x7F) ∧
  decodeWord 0b0101101010110000 = some (.seReg 0xA 0xB) ∧ decodeWord 0b1000101010110110 = some (.shr 0xA 0xB) ∧
  decodeWord 0b1101000100101111 = some (.draw 0x1 0x2 0xF) ∧ decodeWord 0b1110010110011110 = some (.skp 0x5) ∧
  decodeWord 0b1111111001100101 = some (.loadRegs 0xE)

/-- R63, R90: an instruction is two bytes, the high byte first, and decoding them leaves what follows. -/
def Obligations.BytesOfInstruction : Prop :=
  ∀ (i : Instr) (rest : List Byte),
    (encodeBytes i).length = 2 ∧ decode (encodeBytes i ++ rest) = .ok (i, rest)

/-! ### The cycle -/

/-- R120, R122, R123, R127, R128: when the two bytes at `pc` are the word of an instruction, a cycle of a running core
is that instruction's `exec` on the state with `IR` the word and `pc` advanced by 2; then the timers tick unless the
instruction raised a fatal fault (the spec's decision D13, log entry 20). The model's own part is that the report is
clear at the fetch (log entry 9), the next cycle gets the next input and number (log entry 1), `Load` is admitted no
more (the spec's decision D15, log entry 8) and the parameters are fixed (log entry 21). -/
def Obligations.StepRunsDecoded : Prop :=
  ∀ (s : State) (i : Instr) (hi lo : Byte),
    s.halted = false → s.pc.toNat ≤ 0x0FFE → s.mem.read s.pc.toNat = hi → s.mem.read (s.pc.toNat + 1) = lo →
    decodeWord (hi ++ lo) = some i →
    step s =
      match exec i { s with ir := hi ++ lo, pc := s.pc + 2, report := none } with
      | .next t =>
        .next { t with
          dt := if t.halted then t.dt else tickTimer t.dt
          st := if t.halted then t.st else tickTimer t.st
          inputs := t.inputs.tail
          cycle := t.cycle + 1
          loadable := false
          started := true }
      | .fault r => .fault r
      | .refused r => .refused r

/-- R126, R244, R246: the cycle of an unknown word. Under `continue` the word and the fault are recorded and reported,
`pc` is past the word, the timers have ticked and everything else is as before; under `halt` it is a fatal fault (R246,
R252): the core is halted and the timers have not ticked (R128). The record, its code and the report are the spec's
decision D12, the untaken tick its decision D13 (log entries 5, 9 and 20, DESIGN CHOICE). -/
def Obligations.UnknownOpcodeCycle : Prop :=
  ∀ (s : State) (w : Word), s.halted = false → s.fetch = some w → decodeWord w = none →
    ∃ t, step s = .next t ∧
      t.ir = w ∧ t.pc = s.pc + 2 ∧ t.faultCodeOut = 1 ∧ t.faultPc = s.pc ∧
      t.report = some ⟨.unknownOpcode, s.pc, w, none⟩ ∧
      t.v = s.v ∧ t.index = s.index ∧ t.stack = s.stack ∧ t.sp = s.sp ∧ t.mem = s.mem ∧ t.fb = s.fb ∧
      (s.unknownPolicy = .goOn →
        t.halted = false ∧ t.dt.toNat = s.dt.toNat - 1 ∧ t.st.toNat = s.st.toNat - 1) ∧
      (s.unknownPolicy = .halt → t.halted = true ∧ t.dt = s.dt ∧ t.st = s.st)

/-- R67, R250, R252 (the spec's decisions D5, D12, D13; log entries 5, 9, 16 and 20): with `pc` above 0x0FFE a cycle
raises a fatal AddressOutOfRange for the fetch, with the first fetch address above 0x0FFF, and changes nothing but the
fault record. -/
def Obligations.FetchFaultCycle : Prop :=
  ∀ s : State, s.halted = false → 0x0FFE < s.pc.toNat →
    ∃ t, step s = .next t ∧
      t.faultCode = some .addressOutOfRange ∧ t.faultPc = s.pc ∧ t.halted = true ∧
      t.report = some ⟨.addressOutOfRange, s.pc, s.ir, some (if s.pc = 0x0FFF then 0x1000 else s.pc.toNat)⟩ ∧
      t.ir = s.ir ∧ t.pc = s.pc ∧ t.dt = s.dt ∧ t.st = s.st ∧ t.v = s.v ∧ t.index = s.index ∧ t.stack = s.stack ∧
      t.sp = s.sp ∧ t.mem = s.mem ∧ t.fb = s.fb

/-- R133, R253 (the spec's decision D13; log entries 5 and 9): a halted core does nothing, in any number of cycles and
whatever the inputs, and reports nothing. -/
def Obligations.HaltedForever : Prop :=
  ∀ (n : Nat) (s : State), s.halted = true →
    ∃ t, core.run n s = .next t ∧ s.sameCore t ∧ (0 < n → t.report = none)

/-- R252, R244 (the spec's decisions D12, D13; log entries 5, 9, 18 and 20): the state after a cycle that halts a
running core. Everything is as at the start of the cycle but `IR` and `pc` (also these for a fetch fault) and the fault
record; the timers have not ticked. -/
def Obligations.FatalFaultIsPrecise : Prop :=
  ∀ s t : State, s.halted = false → step s = .next t → t.halted = true →
    t.v = s.v ∧ t.index = s.index ∧ t.stack = s.stack ∧ t.sp = s.sp ∧ t.mem = s.mem ∧ t.fb = s.fb ∧
    t.dt = s.dt ∧ t.st = s.st ∧ t.faultPc = s.pc ∧
    (∃ k d, t.faultCode = some k ∧ t.report = some ⟨k, s.pc, t.ir, d⟩) ∧
    (match s.fetch with
      | some w => t.ir = w ∧ t.pc = s.pc + 2
      | none => t.ir = s.ir ∧ t.pc = s.pc)

/-- R30, R31, R127, R128, R228, R230: in a cycle that leaves the core running each timer ends one below a value,
sticking at 0: the register's, when the cycle runs the instruction that writes that timer (`Fx15` for `DT`, `Fx18` for
`ST`), and else the value the timer had. -/
def Obligations.TimersTickOncePerCycle : Prop :=
  ∀ s t : State, s.halted = false → step s = .next t → t.halted = false →
    (∀ w x, s.fetch = some w → decodeWord w = some (.ldDT x) → t.dt.toNat = (s.reg x).toNat - 1) ∧
    ((∀ w x, s.fetch = some w → decodeWord w ≠ some (.ldDT x)) → t.dt.toNat = s.dt.toNat - 1) ∧
    (∀ w x, s.fetch = some w → decodeWord w = some (.ldST x) → t.st.toNat = (s.reg x).toNat - 1) ∧
    ((∀ w x, s.fetch = some w → decodeWord w ≠ some (.ldST x)) → t.st.toNat = s.st.toNat - 1)

/-- R31, R232: over `n` cycles that leave the core running and run no `Fx18`, the sound timer goes down by `n`, sticking
at 0, and `sound_active` is what is left of it. -/
def Obligations.SoundTimerCountsDown : Prop :=
  ∀ (n : Nat) (s t : State), core.run n s = .next t → t.halted = false →
    (∀ k u w x, k < n → core.run k s = .next u → u.fetch = some w → decodeWord w ≠ some (.ldST x)) →
    t.st.toNat = s.st.toNat - n ∧ (t.soundActive = true ↔ n < s.st.toNat)

/-- R247, U2 (this model's log entries 5 and 6): no cycle is refused, and the only stop is a stack fault under
STACK_FAULT_POLICY = continue, which the spec gives no meaning: the fetched word is a `2nnn` with a full stack or a
`00EE` with an empty one, and the stop names that fault. Under the policy `halt` every cycle gives a next state. -/
def Obligations.StepStopsOnlyOnContinuedStackFault : Prop :=
  (∀ s r, step s ≠ .refused r) ∧
  (∀ s r, step s = .fault r → s.stackPolicy = .goOn ∧ ∃ w, s.fetch = some w ∧
    ((∃ nnn, decodeWord w = some (.call nnn) ∧ s.sp.val = 16 ∧ r = .stackFaultContinued .stackOverflow) ∨
      (decodeWord w = some .ret ∧ s.sp.val = 0 ∧ r = .stackFaultContinued .stackUnderflow))) ∧
  (∀ s : State, s.stackPolicy = .halt → ∃ t, step s = .next t)

/-- R6, R43, R284 (log entries 1 and 7): no cycle changes the fault policies; each cycle uses up one presented input and
counts. -/
def Obligations.StepKeepsParameters : Prop :=
  ∀ s t : State, step s = .next t →
    t.unknownPolicy = s.unknownPolicy ∧ t.stackPolicy = s.stackPolicy ∧ t.inputs = s.inputs.tail ∧
    t.cycle = s.cycle + 1

/-- R36, R37, R121, R178 (the spec's decisions D10, D20; log entry 1): an instruction reads the key snapshot only if it
is `Ex9E`, `ExA1` or `Fx0A`, and the random byte only if it is `Cxkk`: with the inputs it reads left equal, other inputs
give the same result. -/
def Obligations.OtherInputsDoNotMatter : Prop :=
  ∀ (i : Instr) (s t : State) (ins : List Input),
    (readsKeys i = true → ({ s with inputs := ins } : State).input.keys = s.input.keys) →
    (readsRnd i = true → ({ s with inputs := ins } : State).input.rnd = s.input.rnd) →
    exec i s = .next t → exec i { s with inputs := ins } = .next { t with inputs := ins }

/-! ### Control transfer -/

/-- R140, R142: the two jumps, for every target and state. -/
def Obligations.JumpTargets : Prop :=
  ∀ (nnn : BitVec 12) (s : State),
    (∃ t, exec (.jump nnn) s = .next t ∧ t.pc.toNat = nnn.toNat ∧ t = { s with pc := t.pc }) ∧
    (∃ t, exec (.jumpV0 nnn) s = .next t ∧ t.pc.toNat = (nnn.toNat + (s.reg 0).toNat) % 0x1000 ∧
      t = { s with pc := t.pc })

/-- R144: `2nnn` with room on the stack pushes the advanced `pc` into the slot numbered by the old `sp`; with a full
stack, under the policy `halt`, it raises a fatal StackOverflow and leaves `stack`, `sp` and `pc` (R244, R247, R252; the
record, the report and the halt are the spec's decisions D12 and D13, log entries 5 and 9; `pc - 2` is the address of
the CALL, log entry 18). -/
def Obligations.CallPushes : Prop :=
  ∀ (nnn : BitVec 12) (s : State),
    (s.sp.val < 16 → ∃ t, exec (.call nnn) s = .next t ∧ t.pc.toNat = nnn.toNat ∧ t.sp.val = s.sp.val + 1 ∧
      (∀ k : Fin 16, t.stack[k.val] = if k.val = s.sp.val then s.pc else s.stack[k.val]) ∧
      t = { s with pc := t.pc, sp := t.sp, stack := t.stack }) ∧
    (s.sp.val = 16 → s.stackPolicy = .halt → ∃ t, exec (.call nnn) s = .next t ∧ t.halted = true ∧
      t.faultCode = some .stackOverflow ∧ t.faultPc = s.pc - 2 ∧
      t.report = some ⟨.stackOverflow, s.pc - 2, s.ir, none⟩ ∧
      t = { s with faultCode := t.faultCode, faultPc := t.faultPc, halted := t.halted, report := t.report })

/-- R146: `00EE` with a return address on the stack counts `sp` down and jumps to the slot it then numbers; with an
empty stack, under the policy `halt`, it raises a fatal StackUnderflow and leaves `sp` and `pc` (R244, R247, R252; the
record, the report and the halt are the spec's decisions D12 and D13, log entries 5 and 9; `pc - 2` is the address of
the RETURN, log entry 18). -/
def Obligations.ReturnPops : Prop :=
  ∀ s : State,
    (0 < s.sp.val → ∃ t, exec .ret s = .next t ∧ t.sp.val + 1 = s.sp.val ∧
      (∀ k : Fin 16, k.val = t.sp.val → t.pc = s.stack[k.val]) ∧ t = { s with pc := t.pc, sp := t.sp }) ∧
    (s.sp.val = 0 → s.stackPolicy = .halt → ∃ t, exec .ret s = .next t ∧ t.halted = true ∧
      t.faultCode = some .stackUnderflow ∧ t.faultPc = s.pc - 2 ∧
      t.report = some ⟨.stackUnderflow, s.pc - 2, s.ir, none⟩ ∧
      t = { s with faultCode := t.faultCode, faultPc := t.faultPc, halted := t.halted, report := t.report })

/-- R247, U2 (this model's log entry 6): a stack fault under STACK_FAULT_POLICY = continue stops the machine by name. -/
def Obligations.ContinuedStackFaultStops : Prop :=
  ∀ s : State, s.stackPolicy = .goOn →
    (s.sp.val = 16 → ∀ nnn, exec (.call nnn) s = .fault (.stackFaultContinued .stackOverflow)) ∧
    (s.sp.val = 0 → exec .ret s = .fault (.stackFaultContinued .stackUnderflow))

/-- R148: after a `CALL`, a `RETURN` from any state that has kept the stack gives back the `pc` and the `sp` that the
CALL was executed with. -/
def Obligations.CallThenReturn : Prop :=
  ∀ (nnn : BitVec 12) (s t u : State), s.sp.val < 16 → exec (.call nnn) s = .next t →
    u.stack = t.stack → u.sp = t.sp →
    ∃ r, exec .ret u = .next r ∧ r.pc = s.pc ∧ r.sp = s.sp

/-- R150, R151, R152, R153: the four comparing skips, for all operands and states. -/
def Obligations.ComparingSkips : Prop :=
  ∀ (x y : Reg) (kk : Byte) (s : State),
    (∃ t, exec (.seImm x kk) s = .next t ∧
      t.pc.toNat = (if s.reg x = kk then (s.pc.toNat + 2) % 0x10000 else s.pc.toNat) ∧ t = { s with pc := t.pc }) ∧
    (∃ t, exec (.sneImm x kk) s = .next t ∧
      t.pc.toNat = (if s.reg x = kk then s.pc.toNat else (s.pc.toNat + 2) % 0x10000) ∧ t = { s with pc := t.pc }) ∧
    (∃ t, exec (.seReg x y) s = .next t ∧
      t.pc.toNat = (if s.reg x = s.reg y then (s.pc.toNat + 2) % 0x10000 else s.pc.toNat) ∧ t = { s with pc := t.pc }) ∧
    (∃ t, exec (.sneReg x y) s = .next t ∧
      t.pc.toNat = (if s.reg x = s.reg y then s.pc.toNat else (s.pc.toNat + 2) % 0x10000) ∧ t = { s with pc := t.pc })

/-! ### Registers, arithmetic, logic -/

/-- R160, R162, R164, R166, R167, R168: the loads, the add of a constant and the logic instructions give `V[x]` its
value and change nothing else; `VF` is changed only as the destination. -/
def Obligations.PlainRegisterResults : Prop :=
  ∀ (x y : Reg) (kk : Byte) (s : State),
    (∃ t, exec (.ldImm x kk) s = .next t ∧ (∀ r, t.reg r = if r = x then kk else s.reg r) ∧ t = { s with v := t.v }) ∧
    (∃ t, exec (.addImm x kk) s = .next t ∧
      (∀ r, (t.reg r).toNat = if r = x then ((s.reg x).toNat + kk.toNat) % 256 else (s.reg r).toNat) ∧
      t = { s with v := t.v }) ∧
    (∃ t, exec (.ldReg x y) s = .next t ∧ (∀ r, t.reg r = if r = x then s.reg y else s.reg r) ∧
      t = { s with v := t.v }) ∧
    (∃ t, exec (.orReg x y) s = .next t ∧
      (∀ r k, (t.reg r).getLsbD k =
        if r = x then ((s.reg x).getLsbD k || (s.reg y).getLsbD k) else (s.reg r).getLsbD k) ∧
      t = { s with v := t.v }) ∧
    (∃ t, exec (.andReg x y) s = .next t ∧
      (∀ r k, (t.reg r).getLsbD k =
        if r = x then ((s.reg x).getLsbD k && (s.reg y).getLsbD k) else (s.reg r).getLsbD k) ∧
      t = { s with v := t.v }) ∧
    (∃ t, exec (.xorReg x y) s = .next t ∧
      (∀ r k, (t.reg r).getLsbD k =
        if r = x then ((s.reg x).getLsbD k ^^ (s.reg y).getLsbD k) else (s.reg r).getLsbD k) ∧
      t = { s with v := t.v })

/-- R170: `8xy4` leaves the sum modulo 256 in `V[x]` and then the carry in `VF`, which with `x = F` is all that is left. -/
def Obligations.AddWithCarry : Prop :=
  ∀ (x y : Reg) (s : State),
    ∃ t, exec (.addReg x y) s = .next t ∧
      (t.reg vF).toNat = (if 255 < (s.reg x).toNat + (s.reg y).toNat then 1 else 0) ∧
      (x ≠ vF → (t.reg x).toNat = ((s.reg x).toNat + (s.reg y).toNat) % 256) ∧
      (∀ r, r ≠ x → r ≠ vF → t.reg r = s.reg r) ∧ t = { s with v := t.v }

/-- R172, R175: `8xy5` and `8xy7` leave the difference modulo 256 in `V[x]` and then not-borrow in `VF`, 1 for equal
operands. -/
def Obligations.SubtractWithNotBorrow : Prop :=
  ∀ (x y : Reg) (s : State),
    (∃ t, exec (.subReg x y) s = .next t ∧
      (t.reg vF).toNat = (if (s.reg y).toNat ≤ (s.reg x).toNat then 1 else 0) ∧
      (x ≠ vF → ((t.reg x).toNat : Int) = ((s.reg x).toNat - (s.reg y).toNat : Int) % 256) ∧
      (∀ r, r ≠ x → r ≠ vF → t.reg r = s.reg r) ∧ t = { s with v := t.v }) ∧
    (∃ t, exec (.subnReg x y) s = .next t ∧
      (t.reg vF).toNat = (if (s.reg x).toNat ≤ (s.reg y).toNat then 1 else 0) ∧
      (x ≠ vF → ((t.reg x).toNat : Int) = ((s.reg y).toNat - (s.reg x).toNat : Int) % 256) ∧
      (∀ r, r ≠ x → r ≠ vF → t.reg r = s.reg r) ∧ t = { s with v := t.v })

/-- R174, R176, R182, R97 (`x = F` is the spec's decision D11; log entry 14): the shifts by one place. `VF` takes the
bit shifted out first and the shift reads `V[x]` again, so `8Fy6` ends with `VF = 0` and `8FyE` with 2 or 0. The `y`
field does not matter. -/
def Obligations.ShiftsByOne : Prop :=
  ∀ (x y : Reg) (s : State),
    (∃ t, exec (.shr x y) s = .next t ∧
      (x ≠ vF → (t.reg x).toNat = (s.reg x).toNat / 2 ∧ (t.reg vF).toNat = (s.reg x).toNat % 2) ∧
      (x = vF → (t.reg vF).toNat = 0) ∧
      (∀ r, r ≠ x → r ≠ vF → t.reg r = s.reg r) ∧ t = { s with v := t.v } ∧ exec (.shr x 0) s = .next t) ∧
    (∃ t, exec (.shl x y) s = .next t ∧
      (x ≠ vF → (t.reg x).toNat = (s.reg x).toNat * 2 % 256 ∧ (t.reg vF).toNat = (s.reg x).toNat / 128) ∧
      (x = vF → (t.reg vF).toNat = (s.reg vF).toNat / 128 * 2) ∧
      (∀ r, r ≠ x → r ≠ vF → t.reg r = s.reg r) ∧ t = { s with v := t.v } ∧ exec (.shl x 0) s = .next t)

/-- R178 (the spec's decision D10; log entry 1): `Cxkk` gives `V[x]` the cycle's random byte under the mask, whatever
the byte is. -/
def Obligations.RandomByteIsMasked : Prop :=
  ∀ (x : Reg) (kk : Byte) (s : State),
    ∃ t, exec (.rnd x kk) s = .next t ∧
      (∀ r k, (t.reg r).getLsbD k = if r = x then (s.input.rnd.getLsbD k && kk.getLsbD k) else (s.reg r).getLsbD k) ∧
      t = { s with v := t.v }

/-! ### Index register and memory -/

/-- R190, R194: `Annn` and `Fx29` set `I`. -/
def Obligations.IndexLoads : Prop :=
  ∀ (nnn : BitVec 12) (x : Reg) (s : State),
    (∃ t, exec (.ldI nnn) s = .next t ∧ t.index.toNat = nnn.toNat ∧ t = { s with index := t.index }) ∧
    (∃ t, exec (.ldF x) s = .next t ∧ t.index.toNat = (s.reg x).toNat * 5 ∧ t = { s with index := t.index })

/-- R192 (the spec's decision D8; log entry 15): `Fx1E` adds modulo 4096 and writes no flag. -/
def Obligations.IndexAddWraps : Prop :=
  ∀ (x : Reg) (s : State),
    ∃ t, exec (.addI x) s = .next t ∧ t.index.toNat = (s.index.toNat + (s.reg x).toNat) % 0x1000 ∧
      t = { s with index := t.index }

/-- R196: with the three addresses inside 80..4095 (the spec's decisions D5, D6), `Fx33` stores hundreds, tens and ones,
one byte each; every byte outside the addresses its meaning stores to reads as before, and nothing but memory changes. -/
def Obligations.BcdStoresDigits : Prop :=
  ∀ (x : Reg) (s : State), s.mem.wf → 80 ≤ s.index.toNat → s.index.toNat + 2 ≤ 0x0FFF →
    ∃ t, exec (.ldB x) s = .next t ∧
      (t.mem.read s.index.toNat).toNat = (s.reg x).toNat / 100 ∧
      (t.mem.read (s.index.toNat + 1)).toNat = (s.reg x).toNat / 10 % 10 ∧
      (t.mem.read (s.index.toNat + 2)).toNat = (s.reg x).toNat % 10 ∧
      storeAddresses (.ldB x) s = [s.index.toNat, s.index.toNat + 1, s.index.toNat + 2] ∧
      (∀ a, a ∉ storeAddresses (.ldB x) s → t.mem.read a = s.mem.read a) ∧
      t.mem.wf ∧ t = { s with mem := t.mem }

/-- R198: `Fx55` stores exactly `V[0]..V[x-1]`, and nothing for `x = 0` whatever `I` is; `I` and the registers stay. The
addresses are those StoreCheck passes (the spec's decisions D5, D6). -/
def Obligations.BlockStore : Prop :=
  ∀ (x : Reg) (s : State), s.mem.wf → (x.val = 0 ∨ (80 ≤ s.index.toNat ∧ s.index.toNat + x.val ≤ 0x1000)) →
    ∃ t, exec (.storeRegs x) s = .next t ∧
      (∀ r : Reg, r.val < x.val → t.mem.read (s.index.toNat + r.val) = s.reg r) ∧
      storeAddresses (.storeRegs x) s = (List.range x.val).map (fun k => s.index.toNat + k) ∧
      (∀ a, a ∉ storeAddresses (.storeRegs x) s → t.mem.read a = s.mem.read a) ∧
      t.mem.wf ∧ t = { s with mem := t.mem }

/-- R200 (with addresses inside `mem`, the spec's decision D5; log entry 16): `Fx65` loads exactly `V[0]..V[x-1]`, and
nothing for `x = 0` whatever `I` is; `I` and memory stay. -/
def Obligations.BlockLoad : Prop :=
  ∀ (x : Reg) (s : State), (x.val = 0 ∨ s.index.toNat + x.val ≤ 0x1000) →
    ∃ t, exec (.loadRegs x) s = .next t ∧
      (∀ r : Reg, t.reg r = if r.val < x.val then s.mem.read (s.index.toNat + r.val) else s.reg r) ∧
      t = { s with v := t.v }

/-- R68, R196, R198 (the spec's decisions D5, D6, D12, D13; log entry 10 for the detail, 18 for `pc - 2`): a store that
leaves `mem`, or else one that starts in the font, raises its fatal fault with the first offending address and changes
nothing but the fault record. `n` is the number of bytes stored, 3 for `Fx33` and `x` for `Fx55`. -/
def Obligations.StoreFaults : Prop :=
  ∀ (x : Reg) (s : State) (i : Instr) (n : Nat), (i = .ldB x ∧ n = 3) ∨ (i = .storeRegs x ∧ n = x.val) → 0 < n →
    (0x1000 < s.index.toNat + n → exec i s = .next { s with
      faultCode := some .addressOutOfRange, faultPc := s.pc - 2, halted := true
      report := some ⟨.addressOutOfRange, s.pc - 2, s.ir, some (max s.index.toNat 0x1000)⟩ }) ∧
    (s.index.toNat < 80 → exec i s = .next { s with
      faultCode := some .fontWriteProtect, faultPc := s.pc - 2, halted := true
      report := some ⟨.fontWriteProtect, s.pc - 2, s.ir, some s.index.toNat⟩ })

/-- R66, R200, R212 (the spec's decisions D5, D12, D13; log entry 10 for the detail, 18 for `pc - 2`): a read of `n`
bytes that leaves `mem`, `n = x` for `Fx65` and `n` for `Dxyn`, raises a fatal AddressOutOfRange with the first
offending address and changes nothing but the fault record. -/
def Obligations.ReadFaults : Prop :=
  ∀ (x y : Reg) (m : BitVec 4) (s : State) (i : Instr) (n : Nat),
    (i = .loadRegs x ∧ n = x.val) ∨ (i = .draw x y m ∧ n = m.toNat) → 0 < n → 0x1000 < s.index.toNat + n →
    exec i s = .next { s with
      faultCode := some .addressOutOfRange, faultPc := s.pc - 2, halted := true
      report := some ⟨.addressOutOfRange, s.pc - 2, s.ir, some (max s.index.toNat 0x1000)⟩ }

/-- R202 (with addresses StoreCheck passes, the spec's decisions D5, D6; log entry 16): after `Fx55`, an `Fx65` with the
same `x` and `I` over the same memory gives back the registers stored. -/
def Obligations.StoreThenLoad : Prop :=
  ∀ (x : Reg) (s t u : State), s.mem.wf → 80 ≤ s.index.toNat → s.index.toNat + x.val ≤ 0x1000 →
    exec (.storeRegs x) s = .next t → u.mem = t.mem → u.index = s.index →
    ∃ w, exec (.loadRegs x) u = .next w ∧
      ∀ r : Reg, w.reg r = if r.val < x.val then s.reg r else u.reg r

/-- R202 (with addresses StoreCheck passes, the spec's decisions D5, D6; log entry 16): after `Fx33`, an `F365` with the
same `I` over the same memory gives three digits that make up the number. -/
def Obligations.BcdThenLoad : Prop :=
  ∀ (x : Reg) (s t u : State), s.mem.wf → 80 ≤ s.index.toNat → s.index.toNat + 2 ≤ 0x0FFF →
    exec (.ldB x) s = .next t → u.mem = t.mem → u.index = s.index →
    ∃ w, exec (.loadRegs 3) u = .next w ∧
      (s.reg x).toNat = 100 * (w.reg 0).toNat + 10 * (w.reg 1).toNat + (w.reg 2).toNat ∧
      (w.reg 0).toNat ≤ 2 ∧ (w.reg 1).toNat ≤ 9 ∧ (w.reg 2).toNat ≤ 9

/-- R80, R83, R63 (with addresses StoreCheck passes, the spec's decisions D5, D6; log entry 16): a word stored by `F255`
from `V0`, `V1` is what the next fetch from that address reads, high byte first, with nothing in between. -/
def Obligations.FetchSeesStore : Prop :=
  ∀ s t u : State, s.mem.wf → 80 ≤ s.index.toNat → s.index.toNat ≤ 0x0FFE → exec (.storeRegs 2) s = .next t →
    u.mem = t.mem → u.pc = s.index →
    ∃ w, u.fetch = some w ∧ w.toNat = 256 * (s.reg 0).toNat + (s.reg 1).toNat

/-! ### Display -/

/-- R210: `00E0` sets every cell to 0 and changes nothing else. -/
def Obligations.ClearScreen : Prop :=
  ∀ s : State, ∃ t, exec .cls s = .next t ∧ (∀ p, t.fb.cell p = false) ∧ t = { s with fb := t.fb }

/-- R212 (the spec's decisions D5, D11, D17; log entries 14 and 16): with its bytes inside `mem`, or with `n = 0` and
any `I`, `Dxyn` inverts exactly the cells under the sprite's set bits, wrapping on both axes, and leaves in `VF` whether
one of them was lit. Where `x` or `y` is F the coordinate is the old `VF`. -/
def Obligations.DrawInvertsSpriteCells : Prop :=
  ∀ (x y : Reg) (n : BitVec 4) (s : State), (n = 0 ∨ s.index.toNat + n.toNat ≤ 0x1000) →
    ∃ t, exec (.draw x y n) s = .next t ∧
      (∀ p, spriteCovers s (s.reg x) (s.reg y) n.toNat p → t.fb.cell p = !s.fb.cell p) ∧
      (∀ p, ¬spriteCovers s (s.reg x) (s.reg y) n.toNat p → t.fb.cell p = s.fb.cell p) ∧
      ((∃ p, spriteCovers s (s.reg x) (s.reg y) n.toNat p ∧ s.fb.cell p = true) → t.reg vF = 1) ∧
      ((¬∃ p, spriteCovers s (s.reg x) (s.reg y) n.toNat p ∧ s.fb.cell p = true) → t.reg vF = 0) ∧
      (∀ r, r ≠ vF → t.reg r = s.reg r) ∧ t = { s with fb := t.fb, v := t.v }

/-- R214 points 2 and 3: drawing the same sprite at the same place again restores the framebuffer, and the second draw
reports a collision exactly when some cell under a set bit was not lit before the first. It covers `x = F` and `y = F`,
where the coordinate is read before `VF` is written (R182, R212, the spec's decision D11; log entry 14), and `n = 0`
with any `I` (the spec's decision D17; log entry 16). -/
def Obligations.DrawTwiceRestores : Prop :=
  ∀ (x y : Reg) (n : BitVec 4) (s t u : State), (n = 0 ∨ s.index.toNat + n.toNat ≤ 0x1000) →
    exec (.draw x y n) s = .next t →
    u.fb = t.fb → u.mem = t.mem → u.index = t.index → u.reg x = s.reg x → u.reg y = s.reg y →
    ∃ w, exec (.draw x y n) u = .next w ∧ w.fb = s.fb ∧
      (w.reg vF = 1 ↔ ∃ p, spriteCovers s (s.reg x) (s.reg y) n.toNat p ∧ s.fb.cell p = false) ∧
      (w.reg vF = 0 ∨ w.reg vF = 1)

/-- R214 point 1: `00E0` followed by a draw gives a framebuffer equal to the sprite bits alone, and no collision. It
covers `x = F` and `y = F`, where the coordinate is read before `VF` is written (R182, R212, the spec's decision D11;
log entry 14), and `n = 0` with any `I` (the spec's decision D17; log entry 16). -/
def Obligations.ClearThenDraw : Prop :=
  ∀ (x y : Reg) (n : BitVec 4) (s t : State), (n = 0 ∨ s.index.toNat + n.toNat ≤ 0x1000) → exec .cls s = .next t →
    ∃ w, exec (.draw x y n) t = .next w ∧
      (∀ p, w.fb.cell p = true ↔ spriteCovers s (s.reg x) (s.reg y) n.toNat p) ∧ w.reg vF = 0

/-! ### Keys and timers -/

/-- R220, R222: with the register in 0..15 the key skips test that key of the cycle's snapshot. -/
def Obligations.KeySkips : Prop :=
  ∀ (x : Reg) (s : State), (s.reg x).toNat ≤ 15 →
    (∃ t, exec (.skp x) s = .next t ∧
      t.pc.toNat = (if s.input.keys.getLsbD (s.reg x).toNat then (s.pc.toNat + 2) % 0x10000 else s.pc.toNat) ∧
      t = { s with pc := t.pc }) ∧
    (∃ t, exec (.sknp x) s = .next t ∧
      t.pc.toNat = (if s.input.keys.getLsbD (s.reg x).toNat then s.pc.toNat else (s.pc.toNat + 2) % 0x10000) ∧
      t = { s with pc := t.pc })

/-- R220, R222, R240, R244 (the spec's decisions D9, D12, D13; log entry 18 for `pc - 2`): with the register above 15
both raise a fatal KeyIndexOutOfRange with the index, and nothing but the fault record changes. -/
def Obligations.KeyIndexFaults : Prop :=
  ∀ (x : Reg) (s : State) (i : Instr), i = .skp x ∨ i = .sknp x → 15 < (s.reg x).toNat →
    exec i s = .next { s with
      faultCode := some .keyIndexOutOfRange, faultPc := s.pc - 2, halted := true
      report := some ⟨.keyIndexOutOfRange, s.pc - 2, s.ir, some (s.reg x).toNat⟩ }

/-- R224: `Fx0A`. With no key held only `pc` goes back by 2, and the whole cycle changes `IR` and ticks the timers and
nothing else; with keys held `V[x]` takes the lowest. -/
def Obligations.WaitForKey : Prop :=
  ∀ (x : Reg) (s : State),
    (s.input.keys = 0 → ∃ t, exec (.ldVxK x) s = .next t ∧ t.pc + 2 = s.pc ∧ t = { s with pc := t.pc }) ∧
    (s.input.keys ≠ 0 → ∃ t, exec (.ldVxK x) s = .next t ∧
      (t.reg x).toNat < 16 ∧ s.input.keys.getLsbD (t.reg x).toNat = true ∧
      (∀ j, j < (t.reg x).toNat → s.input.keys.getLsbD j = false) ∧
      (∀ r, r ≠ x → t.reg r = s.reg r) ∧ t = { s with v := t.v }) ∧
    (∀ w, s.halted = false → s.fetch = some w → decodeWord w = some (.ldVxK x) → s.input.keys = 0 →
      ∃ t, step s = .next t ∧ t.ir = w ∧ t.dt.toNat = s.dt.toNat - 1 ∧ t.st.toNat = s.st.toNat - 1 ∧
        s.sameCore { t with ir := s.ir, dt := s.dt, st := s.st })

/-- R226, R228, R230: the timer instructions by themselves, before the tick of their cycle. -/
def Obligations.TimerAccess : Prop :=
  ∀ (x : Reg) (s : State),
    (∃ t, exec (.ldVxDT x) s = .next t ∧ (∀ r, t.reg r = if r = x then s.dt else s.reg r) ∧ t = { s with v := t.v }) ∧
    (∃ t, exec (.ldDT x) s = .next t ∧ t.dt = s.reg x ∧ t = { s with dt := t.dt }) ∧
    (∃ t, exec (.ldST x) s = .next t ∧ t.st = s.reg x ∧ t = { s with st := t.st })

/-- R226, R228, R230, R127: the timer instructions over their whole cycle. `Fx07` reads `DT` before the tick; `Fx15` and
`Fx18` leave one less than the register. -/
def Obligations.TimerCycles : Prop :=
  ∀ (x : Reg) (s : State) (w : Word), s.halted = false → s.fetch = some w →
    (decodeWord w = some (.ldVxDT x) → ∃ t, step s = .next t ∧ t.reg x = s.dt ∧ t.dt.toNat = s.dt.toNat - 1) ∧
    (decodeWord w = some (.ldDT x) → ∃ t, step s = .next t ∧ t.dt.toNat = (s.reg x).toNat - 1) ∧
    (decodeWord w = some (.ldST x) → ∃ t, step s = .next t ∧ t.st.toNat = (s.reg x).toNat - 1)

/-! ### Frames over all instructions -/

/-- R22, R38: an instruction leaves every general register it is not said to write. -/
def Obligations.RegisterFrame : Prop :=
  ∀ (i : Instr) (s t : State) (r : Reg), exec i s = .next t → mayWriteReg i r = false → t.reg r = s.reg r

/-- R62: every byte outside the addresses an instruction stores to reads as before; for all but `Fx33` and `Fx55` that
is every byte. -/
def Obligations.MemoryFrame : Prop :=
  ∀ (i : Instr) (s t : State), exec i s = .next t → ∀ a, a ∉ storeAddresses i s → t.mem.read a = s.mem.read a

/-- R23, R24, R27, R30, R31, R33, R34, R35: which instructions may write `I`, `pc`, the stack, the framebuffer and the
timers; `IR`, the parameters, the inputs and the model's own fields (log entries 1, 7, 8 and 21) no instruction writes. -/
def Obligations.SpecialStateFrame : Prop :=
  ∀ (i : Instr) (s t : State), exec i s = .next t →
    (mayWriteIndex i = false → t.index = s.index) ∧
    (mayWritePc i = false → t.pc = s.pc) ∧
    (mayWriteStack i = false → t.stack = s.stack ∧ t.sp = s.sp) ∧
    (mayWriteFb i = false → t.fb = s.fb) ∧
    ((∀ x, i ≠ .ldDT x) → t.dt = s.dt) ∧ ((∀ x, i ≠ .ldST x) → t.st = s.st) ∧
    t.ir = s.ir ∧ t.unknownPolicy = s.unknownPolicy ∧ t.stackPolicy = s.stackPolicy ∧ t.inputs = s.inputs ∧
    t.cycle = s.cycle ∧ t.loadable = s.loadable ∧ t.started = s.started

/-- R240, R244, R255 (the spec's decisions D12, D13; log entry 18 for `pc - 2`): an instruction leaves the fault record
and `halted`, or raises one of the faults R240 lists for it, and then it does nothing but write that fault's record. -/
def Obligations.FaultsAsListed : Prop :=
  ∀ (i : Instr) (s t : State), exec i s = .next t →
    (t.faultCode = s.faultCode ∧ t.faultPc = s.faultPc ∧ t.halted = s.halted ∧ t.report = s.report) ∨
    ∃ k d, k ∈ faultsOf i ∧ t = { s with
      faultCode := some k, faultPc := s.pc - 2, halted := true, report := some ⟨k, s.pc - 2, s.ir, d⟩ }

/-- R69, R72 (the spec's decision D6; log entry 16): no cycle, from any state, changes a font byte. -/
def Obligations.FontIsImmutable : Prop :=
  ∀ s t : State, step s = .next t → ∀ a, a < 80 → t.mem.read a = s.mem.read a

/-! ### Reset, load and the invariant -/

/-- R42, R71, R280 (values beyond `pc`, the font, `V0` and the framebuffer are the spec's decisions D2, D3, D12, and 14
glyphs D4; the model's log entries 3 and 4): the state after reset. -/
def Obligations.ResetValues : Prop :=
  State.reset.pc = 0x0200 ∧ (∀ r, State.reset.reg r = 0) ∧ State.reset.index = 0 ∧ State.reset.sp = 0 ∧
  (∀ k : Fin 16, State.reset.stack[k.val] = 0) ∧ State.reset.dt = 0 ∧ State.reset.st = 0 ∧
  (∀ p, State.reset.fb.cell p = false) ∧ State.reset.ir = 0 ∧ State.reset.faultCodeOut = 0 ∧
  State.reset.faultPc = 0 ∧ State.reset.halted = false ∧
  (List.range 80).map (fun a => (State.reset.mem.read a).toNat) =
    [0xF0, 0x90, 0x90, 0x90, 0xF0, 0x20, 0x60, 0x20, 0x20, 0x70, 0xF0, 0x10, 0xF0, 0x80, 0xF0, 0xF0, 0x10, 0xF0, 0x10,
     0xF0, 0x90, 0x90, 0xF0, 0x10, 0x10, 0xF0, 0x80, 0xF0, 0x10, 0xF0, 0xF0, 0x80, 0xF0, 0x90, 0xF0, 0xF0, 0x10, 0x20,
     0x40, 0x40, 0xF0, 0x90, 0xF0, 0x90, 0xF0, 0xF0, 0x90, 0xF0, 0x10, 0xF0, 0xF0, 0x90, 0xF0, 0x90, 0x90, 0xE0, 0x90,
     0xE0, 0x90, 0xE0, 0xF0, 0x80, 0x80, 0x80, 0xF0, 0xE0, 0x90, 0x90, 0x90, 0xE0, 0xF0, 0x80, 0xF0, 0x80, 0xF0, 0xF0,
     0x80, 0xF0, 0x80, 0x80] ∧
  (∀ a, 80 ≤ a → State.reset.mem.read a = 0)

/-- The invariant holds right after reset (R23, R42, R69, R77; it rests on the spec's decisions D2, D3, D6, D8, D12,
D15). -/
def Obligations.ResetMeetsInvariant : Prop := State.reset.Inv

/-- R23, R25, R69, R155, R253 (the spec's decisions D5 to D8, D12, D13, D15): every cycle, from every state that meets
the invariant, ends in a state that meets it: the memory keeps its form and its font, `I` its range, `pc` and the return
addresses theirs, a halted core names the fatal fault that halted it, and the load window is closed once a cycle has
run. -/
def Obligations.StepKeepsInvariant : Prop :=
  ∀ s t : State, s.Inv → step s = .next t → t.Inv

/-- R280, R282, R43 (the spec's decisions D2, D3, D12; log entries 3, 8, 11 and 21): the host's reset brings every piece
of state back to its reset value, from any state, keeps the parameters, opens the load window and that of the
parameters, and gives a state that meets the invariant. -/
def Obligations.HostResetRestores : Prop :=
  ∀ s : State, State.reset.sameCore s.hostReset ∧ s.hostReset.unknownPolicy = s.unknownPolicy ∧
    s.hostReset.stackPolicy = s.stackPolicy ∧ s.hostReset.loadable = true ∧ s.hostReset.started = false ∧
    s.hostReset.Inv

/-- R75, R76: in its window (R77, the spec's decision D15; log entry 8) `Load` copies the program to 0x200 and up and
changes nothing else (but for the model's own record that a load was made), up to 3584 bytes; a longer program is
rejected. -/
def Obligations.LoadCopiesProgram : Prop :=
  ∀ (s : State) (program : List Byte), s.loadable = true → s.mem.wf →
    (program.length ≤ 4096 - 0x200 → ∃ t, s.load program = .loaded t ∧
      (∀ k (h : k < program.length), t.mem.read (0x200 + k) = program[k]) ∧
      (∀ a, a < 0x200 ∨ 0x200 + program.length ≤ a → t.mem.read a = s.mem.read a) ∧
      t.mem.wf ∧ t = { s with mem := t.mem, loadable := false }) ∧
    (4096 - 0x200 < program.length → s.load program = .programTooLarge)

/-- R77 (the spec's decision D15; log entry 8): a load after a load or after any cycle is refused. -/
def Obligations.LoadOnlyBeforeFirstCycle : Prop :=
  (∀ (s : State) (program : List Byte), s.loadable = false → s.load program = .refused .loadOutsideWindow) ∧
  (∀ s t : State, step s = .next t → t.loadable = false) ∧
  (∀ (s t : State) (program : List Byte), s.load program = .loaded t → t.loadable = false)

/-- R240, R131, R35: the numbers under which the host reads the fault code, and `sound_active` (R232). The codes 1 to 6
and the register `fault_code` are the spec's decision D12 (log entry 5), and a fault held by its name is the model's
choice (log entry 19). -/
def Obligations.OutputsOfState : Prop :=
  ∀ s : State,
    (s.faultCodeOut = 0 ↔ s.faultCode = none) ∧ (s.faultCodeOut = 1 ↔ s.faultCode = some .unknownOpcode) ∧
    (s.faultCodeOut = 2 ↔ s.faultCode = some .stackOverflow) ∧
    (s.faultCodeOut = 3 ↔ s.faultCode = some .stackUnderflow) ∧
    (s.faultCodeOut = 4 ↔ s.faultCode = some .addressOutOfRange) ∧
    (s.faultCodeOut = 5 ↔ s.faultCode = some .fontWriteProtect) ∧
    (s.faultCodeOut = 6 ↔ s.faultCode = some .keyIndexOutOfRange) ∧
    (s.soundActive = true ↔ s.st ≠ 0)

/-- R36, R37, R121 (the spec's decisions D10, D20; log entry 1): a cycle reads the inputs the host presents to it. With
`i` at the head of the presented inputs, `i` is the cycle's input, as its instruction sees it too, and the cycle leaves
the rest: `Cxkk` takes `i.rnd`, and `Ex9E`, `ExA1` and `Fx0A` read `i.keys`. With none presented the input is the free
one of the cycle's number. -/
def Obligations.CycleReadsPresentedInput : Prop :=
  (∀ (s : State) (i : Input) (rest : List Input) (w : Word) (x : Reg) (kk : Byte),
    s.inputs = i :: rest → s.halted = false → s.fetch = some w →
      s.input = i ∧ ({ s with ir := w, pc := s.pc + 2, report := none } : State).input = i ∧
      (decodeWord w = some (.rnd x kk) → ∃ t, step s = .next t ∧ t.reg x = i.rnd &&& kk ∧ t.inputs = rest) ∧
      (decodeWord w = some (.skp x) → (s.reg x).toNat ≤ 15 → ∃ t, step s = .next t ∧
        t.pc = (if i.keys.getLsbD (s.reg x).toNat then s.pc + 4 else s.pc + 2) ∧ t.inputs = rest) ∧
      (decodeWord w = some (.sknp x) → (s.reg x).toNat ≤ 15 → ∃ t, step s = .next t ∧
        t.pc = (if i.keys.getLsbD (s.reg x).toNat then s.pc + 2 else s.pc + 4) ∧ t.inputs = rest) ∧
      (decodeWord w = some (.ldVxK x) → ∃ t, step s = .next t ∧ t.inputs = rest ∧
        (i.keys = 0 → t.pc = s.pc ∧ t.v = s.v) ∧
        (i.keys ≠ 0 → t.pc = s.pc + 2 ∧ (t.reg x).toNat < 16 ∧ i.keys.getLsbD (t.reg x).toNat = true ∧
          ∀ j, j < (t.reg x).toNat → i.keys.getLsbD j = false))) ∧
  (∀ s : State, s.inputs = [] → s.input = ⟨Config.freeKeys s.cycle, Config.freeRnd s.cycle⟩)

/-- R6, R284 (log entry 21): the host fixes the policies before the first cycle. Until then `State.configure` sets them
and changes nothing else, a load made before or not; once a cycle has run since reset it is refused by name. Reset and
load leave the window open, every cycle closes it, and no host operation but `State.configure` changes a policy. -/
def Obligations.ConfigureOnlyBeforeFirstCycle : Prop :=
  (∀ (s : State) (u k : FaultPolicy), s.started = false →
    s.configure u k = .configured { s with unknownPolicy := u, stackPolicy := k }) ∧
  (∀ (s : State) (u k : FaultPolicy), s.started = true → s.configure u k = .refused .configureAfterFirstCycle) ∧
  State.reset.started = false ∧ (∀ s : State, s.hostReset.started = false) ∧
  (∀ s t : State, step s = .next t → t.started = true) ∧
  (∀ (s t : State) (program : List Byte), s.load program = .loaded t →
    t.started = s.started ∧ t.unknownPolicy = s.unknownPolicy ∧ t.stackPolicy = s.stackPolicy) ∧
  (∀ s : State, s.hostReset.unknownPolicy = s.unknownPolicy ∧ s.hostReset.stackPolicy = s.stackPolicy) ∧
  (∀ (s : State) (ins : List Input),
    (s.present ins).started = s.started ∧ (s.present ins).unknownPolicy = s.unknownPolicy ∧
      (s.present ins).stackPolicy = s.stackPolicy)
end

