-- ==== Sys2Proof/Laws/Decode.lean ====
section
/-! SUPPORT. The numbers behind the formats (R91, R92): the word of each format as a sum, each field as a quotient, and each
field of each format. -/

namespace Sys2Proof

theorem append_toNat {n m : Nat} (a : BitVec n) (b : BitVec m) : (a ++ b).toNat = a.toNat * 2 ^ m + b.toNat := by
  rw [BitVec.toNat_append, ← Nat.shiftLeft_add_eq_or_of_lt b.isLt, Nat.shiftLeft_eq]

theorem regBits_toNat (r : Reg) : (regBits r).toNat = r.val := by simp [regBits]

@[simp] theorem regOfBits_regBits (r : Reg) : regOfBits (regBits r) = r := Fin.ext (regBits_toNat r)

@[simp] theorem regBits_regOfBits (b : BitVec 4) : regBits (regOfBits b) = b := by
  apply BitVec.eq_of_toNat_eq
  rw [regBits_toNat]
  rfl

/-! ### The words -/

theorem encNNN_toNat (a : BitVec 4) (nnn : BitVec 12) : (encNNN a nnn).toNat = a.toNat * 4096 + nnn.toNat :=
  append_toNat a nnn

theorem encXKK_toNat (a : BitVec 4) (x : Reg) (kk : Byte) :
    (encXKK a x kk).toNat = a.toNat * 4096 + x.val * 256 + kk.toNat := by
  calc (encXKK a x kk).toNat
    _ = (a ++ regBits x).toNat * 2 ^ 8 + kk.toNat := append_toNat _ kk
    _ = (a.toNat * 2 ^ 4 + (regBits x).toNat) * 2 ^ 8 + kk.toNat := by rw [append_toNat a (regBits x)]
    _ = _ := by rw [regBits_toNat]; omega

theorem encXYN_toNat (a : BitVec 4) (x y : Reg) (n : BitVec 4) :
    (encXYN a x y n).toNat = a.toNat * 4096 + x.val * 256 + y.val * 16 + n.toNat := by
  calc (encXYN a x y n).toNat
    _ = (a ++ regBits x ++ regBits y).toNat * 2 ^ 4 + n.toNat := append_toNat _ n
    _ = ((a ++ regBits x).toNat * 2 ^ 4 + (regBits y).toNat) * 2 ^ 4 + n.toNat := by
      rw [append_toNat (a ++ regBits x) (regBits y)]
    _ = ((a.toNat * 2 ^ 4 + (regBits x).toNat) * 2 ^ 4 + (regBits y).toNat) * 2 ^ 4 + n.toNat := by
      rw [append_toNat a (regBits x)]
    _ = _ := by rw [regBits_toNat, regBits_toNat]; omega

theorem wordOfBytes_toNat (hi lo : Byte) : (wordOfBytes hi lo).toNat = hi.toNat * 256 + lo.toNat :=
  append_toNat hi lo

/-! ### The fields -/

theorem fieldOp4_toNat (w : Word) : (fieldOp4 w).toNat = w.toNat / 4096 % 16 := by
  simp [fieldOp4, Nat.shiftRight_eq_div_pow]

theorem fieldNnn_toNat (w : Word) : (fieldNnn w).toNat = w.toNat % 4096 := by simp [fieldNnn]

theorem fieldX_val (w : Word) : (fieldX w).val = w.toNat / 256 % 16 := by
  simp [fieldX, regOfBits, Nat.shiftRight_eq_div_pow]

theorem fieldY_val (w : Word) : (fieldY w).val = w.toNat / 16 % 16 := by
  simp [fieldY, regOfBits, Nat.shiftRight_eq_div_pow]

theorem fieldKk_toNat (w : Word) : (fieldKk w).toNat = w.toNat % 256 := by simp [fieldKk]

theorem fieldN_toNat (w : Word) : (fieldN w).toNat = w.toNat % 16 := by simp [fieldN]

theorem highByte_toNat (w : Word) : (highByte w).toNat = w.toNat / 256 := by
  simp only [highByte, BitVec.extractLsb'_toNat, Nat.shiftRight_eq_div_pow]
  omega

theorem lowByte_toNat (w : Word) : (lowByte w).toNat = w.toNat % 256 := by simp [lowByte]

/-- The two bytes of a word make up the word (R63). -/
@[simp] theorem wordOfBytes_bytes (w : Word) : wordOfBytes (highByte w) (lowByte w) = w := by
  apply BitVec.eq_of_toNat_eq
  rw [wordOfBytes_toNat, highByte_toNat, lowByte_toNat]
  omega

/-! ### The masks of the opcode map (R92) -/

theorem and_F000_toNat (w : Word) : (w &&& 0xF000#16).toNat = w.toNat / 4096 * 4096 := by
  have h : w &&& 0xF000#16 = (w >>> 12) <<< 12 := by
    apply BitVec.eq_of_getLsbD_eq
    intro i hi
    interval_cases i <;> simp
  rw [h]
  simp only [BitVec.toNat_shiftLeft, BitVec.toNat_ushiftRight, Nat.shiftRight_eq_div_pow, Nat.shiftLeft_eq]
  omega

theorem and_F00F_toNat (w : Word) : (w &&& 0xF00F#16).toNat = w.toNat / 4096 * 4096 + w.toNat % 16 := by
  have h : w &&& 0xF00F#16 = ((w >>> 12) <<< 12) ||| ((w <<< 12) >>> 12) := by
    apply BitVec.eq_of_getLsbD_eq
    intro i hi
    interval_cases i <;> simp
  have hd : ((w >>> 12) <<< 12) &&& ((w <<< 12) >>> 12) = 0#16 := by
    apply BitVec.eq_of_getLsbD_eq
    intro i hi
    interval_cases i <;> simp
  rw [h, ← BitVec.add_eq_or_of_and_eq_zero _ _ hd]
  simp only [BitVec.toNat_add, BitVec.toNat_shiftLeft, BitVec.toNat_ushiftRight, Nat.shiftRight_eq_div_pow,
    Nat.shiftLeft_eq]
  omega

theorem and_F0FF_toNat (w : Word) : (w &&& 0xF0FF#16).toNat = w.toNat / 4096 * 4096 + w.toNat % 256 := by
  have h : w &&& 0xF0FF#16 = ((w >>> 12) <<< 12) ||| ((w <<< 8) >>> 8) := by
    apply BitVec.eq_of_getLsbD_eq
    intro i hi
    interval_cases i <;> simp
  have hd : ((w >>> 12) <<< 12) &&& ((w <<< 8) >>> 8) = 0#16 := by
    apply BitVec.eq_of_getLsbD_eq
    intro i hi
    interval_cases i <;> simp
  rw [h, ← BitVec.add_eq_or_of_and_eq_zero _ _ hd]
  simp only [BitVec.toNat_add, BitVec.toNat_shiftLeft, BitVec.toNat_ushiftRight, Nat.shiftRight_eq_div_pow,
    Nat.shiftLeft_eq]
  omega

/-! ### Each field of each format -/

variable (a n : BitVec 4) (nnn : BitVec 12) (x y : Reg) (kk : Byte)

@[simp] theorem fieldOp4_encNNN : fieldOp4 (encNNN a nnn) = a := by
  apply BitVec.eq_of_toNat_eq
  rw [fieldOp4_toNat, encNNN_toNat]
  omega

@[simp] theorem fieldNnn_encNNN : fieldNnn (encNNN a nnn) = nnn := by
  apply BitVec.eq_of_toNat_eq
  rw [fieldNnn_toNat, encNNN_toNat]
  omega

@[simp] theorem fieldOp4_encXKK : fieldOp4 (encXKK a x kk) = a := by
  apply BitVec.eq_of_toNat_eq
  rw [fieldOp4_toNat, encXKK_toNat]
  omega

@[simp] theorem fieldX_encXKK : fieldX (encXKK a x kk) = x := by
  apply Fin.ext
  rw [fieldX_val, encXKK_toNat]
  omega

@[simp] theorem fieldKk_encXKK : fieldKk (encXKK a x kk) = kk := by
  apply BitVec.eq_of_toNat_eq
  rw [fieldKk_toNat, encXKK_toNat]
  omega

@[simp] theorem fieldOp4_encXYN : fieldOp4 (encXYN a x y n) = a := by
  apply BitVec.eq_of_toNat_eq
  rw [fieldOp4_toNat, encXYN_toNat]
  omega

@[simp] theorem fieldX_encXYN : fieldX (encXYN a x y n) = x := by
  apply Fin.ext
  rw [fieldX_val, encXYN_toNat]
  omega

@[simp] theorem fieldY_encXYN : fieldY (encXYN a x y n) = y := by
  apply Fin.ext
  rw [fieldY_val, encXYN_toNat]
  omega

@[simp] theorem fieldN_encXYN : fieldN (encXYN a x y n) = n := by
  apply BitVec.eq_of_toNat_eq
  rw [fieldN_toNat, encXYN_toNat]
  omega

end Sys2Proof
end

