-- ==== Sys2Proof/Laws/Display.lean ====
section
/-! SUPPORT. The laws of the framebuffer: one inversion, a list of inversions, and which cells a sprite touches (R212). -/

namespace Sys2Proof.Machine

@[simp] theorem Framebuffer.clear_cell (p : FbCell) : Framebuffer.clear.cell p = false := by
  simp [Framebuffer.clear, Framebuffer.cell]

/-- Two framebuffers with the same cells are the same. -/
theorem Framebuffer.ext_cell {f g : Framebuffer} (h : ∀ p, f.cell p = g.cell p) : f = g := by
  apply Vector.ext
  intro r hr
  apply Vector.ext
  intro c hc
  exact h (⟨r, hr⟩, ⟨c, hc⟩)

/-- An inversion changes its own cell and no other. -/
theorem Framebuffer.toggle_cell (f : Framebuffer) (p q : FbCell) :
    (f.toggle p).cell q = if q = p then !f.cell p else f.cell q := by
  obtain ⟨pr, pc⟩ := p
  obtain ⟨qr, qc⟩ := q
  simp only [Framebuffer.toggle, Framebuffer.cell, Vector.getElem_set, Prod.mk.injEq, Fin.ext_iff]
  by_cases hr : pr.val = qr.val
  · by_cases hc : pc.val = qc.val
    · simp [hr, hc]
    · simp [hr, hc, Ne.symm hc]
  · simp [hr, Ne.symm hr]

/-- Inverting cells that are all different inverts exactly those, and the collision says whether one was lit. -/
theorem toggleAll_spec (f : Framebuffer) (cells : List FbCell) (c : Bool) (h : cells.Nodup) :
    (∀ q, (toggleAll f cells c).1.cell q = (f.cell q ^^ decide (q ∈ cells))) ∧
      (toggleAll f cells c).2 = (c || cells.any fun q => f.cell q) := by
  induction cells generalizing f c with
  | nil => simp [toggleAll]
  | cons p rest ih =>
    obtain ⟨hp, hr⟩ := List.nodup_cons.mp h
    obtain ⟨h1, h2⟩ := ih (f.toggle p) (c || f.cell p) hr
    constructor
    · intro q
      rw [toggleAll, h1 q, Framebuffer.toggle_cell]
      by_cases hq : q = p
      · subst hq; simp [hp]
      · simp [hq]
    · have hany : (rest.any fun q => (f.toggle p).cell q) = rest.any fun q => f.cell q := by
        rw [Bool.eq_iff_iff, List.any_eq_true, List.any_eq_true]
        have same : ∀ q ∈ rest, (f.toggle p).cell q = f.cell q := fun q hq => by
          have hne : q ≠ p := fun he => hp (he ▸ hq)
          rw [Framebuffer.toggle_cell, if_neg hne]
        exact ⟨fun ⟨q, hq, hl⟩ => ⟨q, hq, same q hq ▸ hl⟩, fun ⟨q, hq, hl⟩ => ⟨q, hq, (same q hq).symm ▸ hl⟩⟩
      rw [toggleAll, h2, hany, List.any_cons, Bool.or_assoc]

/-- The cells under a sprite row are those of its set bits. -/
theorem mem_spriteRowCells (vx vy : Byte) (r : Nat) (b : Byte) (p : FbCell) :
    p ∈ spriteRowCells vx vy r b ↔ ∃ c, c < 8 ∧ b.getLsbD (7 - c) = true ∧ spriteCell vx vy r c = p := by
  simp [spriteRowCells, and_assoc]

/-- The cells under a sprite are those of the set bits of its rows. -/
theorem mem_spriteCells (vx vy : Byte) (r : Nat) (rows : List Byte) (p : FbCell) :
    p ∈ spriteCells vx vy r rows ↔
      ∃ k b c, rows[k]? = some b ∧ c < 8 ∧ b.getLsbD (7 - c) = true ∧ spriteCell vx vy (r + k) c = p := by
  induction rows generalizing r with
  | nil => simp [spriteCells]
  | cons b rest ih =>
    rw [spriteCells, List.mem_append, mem_spriteRowCells, ih]
    constructor
    · rintro (⟨c, h⟩ | ⟨k, d, c, hk, h⟩)
      · exact ⟨0, b, c, rfl, h⟩
      · exact ⟨k + 1, d, c, hk, by rw [Nat.add_comm k, ← Nat.add_assoc]; exact h⟩
    · rintro ⟨k, d, c, hk, h⟩
      cases k with
      | zero => exact .inl ⟨c, by simpa using (Option.some.inj hk) ▸ h⟩
      | succ k => exact .inr ⟨k, d, c, hk, by rw [Nat.add_comm k, ← Nat.add_assoc] at h; exact h⟩

/-- Pixels of one row are in 8 different columns. -/
theorem spriteRowCells_nodup (vx vy : Byte) (r : Nat) (b : Byte) : (spriteRowCells vx vy r b).Nodup := by
  unfold spriteRowCells
  refine List.Nodup.map_on ?_ (List.Nodup.filter _ List.nodup_range)
  intro c hc d hd h
  simp only [List.mem_filter, List.mem_range] at hc hd
  simp only [spriteCell, Prod.mk.injEq, Fin.ext_iff, Fin.val_ofNat] at h
  omega

/-- The rows of a sprite of at most 32 rows land on different rows, so no cell is touched twice (R212). -/
theorem spriteCells_nodup (vx vy : Byte) (r : Nat) (rows : List Byte) (h : rows.length ≤ 32) :
    (spriteCells vx vy r rows).Nodup := by
  induction rows generalizing r with
  | nil => simp [spriteCells]
  | cons b rest ih =>
    simp only [List.length_cons] at h
    refine List.Nodup.append (spriteRowCells_nodup vx vy r b) (ih _ (by omega)) ?_
    intro p hp hq
    obtain ⟨c, -, -, rfl⟩ := (mem_spriteRowCells _ _ _ _ _).mp hp
    obtain ⟨k, d, e, hk, -, -, he⟩ := (mem_spriteCells _ _ _ _ _).mp hq
    have hlt : k < rest.length := (List.getElem?_eq_some_iff.mp hk).1
    simp only [spriteCell, Prod.mk.injEq, Fin.ext_iff, Fin.val_ofNat] at he
    omega

/-- The blit of a sprite, cell by cell (R212). -/
theorem drawSprite_spec (f : Framebuffer) (vx vy : Byte) (rows : List Byte) (h : rows.length ≤ 32) :
    (∀ q, (drawSprite f vx vy rows).1.cell q = (f.cell q ^^ decide (q ∈ spriteCells vx vy 0 rows))) ∧
      (drawSprite f vx vy rows).2 = (spriteCells vx vy 0 rows).any fun q => f.cell q := by
  have := toggleAll_spec f (spriteCells vx vy 0 rows) false (spriteCells_nodup vx vy 0 rows h)
  simpa [drawSprite] using this

end Sys2Proof.Machine
end

