-- ==== Sys2Proof/Laws/State.lean ====
section
/-! SUPPORT. What each named update does to each field of the state and to each register, so that no later proof unfolds a
record update. -/

namespace Sys2Proof.Machine

variable (s : State)

/-! ### setReg -/

@[simp] theorem State.setReg_v (x : Reg) (b : Byte) : (s.setReg x b).v = s.v.set x.val b := rfl
@[simp] theorem State.setReg_index (x : Reg) (b : Byte) : (s.setReg x b).index = s.index := rfl
@[simp] theorem State.setReg_pc (x : Reg) (b : Byte) : (s.setReg x b).pc = s.pc := rfl
@[simp] theorem State.setReg_stack (x : Reg) (b : Byte) : (s.setReg x b).stack = s.stack := rfl
@[simp] theorem State.setReg_sp (x : Reg) (b : Byte) : (s.setReg x b).sp = s.sp := rfl
@[simp] theorem State.setReg_dt (x : Reg) (b : Byte) : (s.setReg x b).dt = s.dt := rfl
@[simp] theorem State.setReg_st (x : Reg) (b : Byte) : (s.setReg x b).st = s.st := rfl
@[simp] theorem State.setReg_mem (x : Reg) (b : Byte) : (s.setReg x b).mem = s.mem := rfl
@[simp] theorem State.setReg_fb (x : Reg) (b : Byte) : (s.setReg x b).fb = s.fb := rfl
@[simp] theorem State.setReg_ir (x : Reg) (b : Byte) : (s.setReg x b).ir = s.ir := rfl
@[simp] theorem State.setReg_faultCode (x : Reg) (b : Byte) : (s.setReg x b).faultCode = s.faultCode := rfl
@[simp] theorem State.setReg_faultPc (x : Reg) (b : Byte) : (s.setReg x b).faultPc = s.faultPc := rfl
@[simp] theorem State.setReg_halted (x : Reg) (b : Byte) : (s.setReg x b).halted = s.halted := rfl
@[simp] theorem State.setReg_report (x : Reg) (b : Byte) : (s.setReg x b).report = s.report := rfl
@[simp] theorem State.setReg_unknownPolicy (x : Reg) (b : Byte) : (s.setReg x b).unknownPolicy = s.unknownPolicy := rfl
@[simp] theorem State.setReg_stackPolicy (x : Reg) (b : Byte) : (s.setReg x b).stackPolicy = s.stackPolicy := rfl
@[simp] theorem State.setReg_inputs (x : Reg) (b : Byte) : (s.setReg x b).inputs = s.inputs := rfl
@[simp] theorem State.setReg_cycle (x : Reg) (b : Byte) : (s.setReg x b).cycle = s.cycle := rfl
@[simp] theorem State.setReg_loadable (x : Reg) (b : Byte) : (s.setReg x b).loadable = s.loadable := rfl
@[simp] theorem State.setReg_started (x : Reg) (b : Byte) : (s.setReg x b).started = s.started := rfl
@[simp] theorem State.setReg_input (x : Reg) (b : Byte) : (s.setReg x b).input = s.input := rfl

/-! ### setLowRegs -/

@[simp] theorem State.setLowRegs_v (bytes : List Byte) : (s.setLowRegs bytes).v = Vector.ofFn fun i : Reg => bytes.getD i.val (s.reg i) := rfl
@[simp] theorem State.setLowRegs_index (bytes : List Byte) : (s.setLowRegs bytes).index = s.index := rfl
@[simp] theorem State.setLowRegs_pc (bytes : List Byte) : (s.setLowRegs bytes).pc = s.pc := rfl
@[simp] theorem State.setLowRegs_stack (bytes : List Byte) : (s.setLowRegs bytes).stack = s.stack := rfl
@[simp] theorem State.setLowRegs_sp (bytes : List Byte) : (s.setLowRegs bytes).sp = s.sp := rfl
@[simp] theorem State.setLowRegs_dt (bytes : List Byte) : (s.setLowRegs bytes).dt = s.dt := rfl
@[simp] theorem State.setLowRegs_st (bytes : List Byte) : (s.setLowRegs bytes).st = s.st := rfl
@[simp] theorem State.setLowRegs_mem (bytes : List Byte) : (s.setLowRegs bytes).mem = s.mem := rfl
@[simp] theorem State.setLowRegs_fb (bytes : List Byte) : (s.setLowRegs bytes).fb = s.fb := rfl
@[simp] theorem State.setLowRegs_ir (bytes : List Byte) : (s.setLowRegs bytes).ir = s.ir := rfl
@[simp] theorem State.setLowRegs_faultCode (bytes : List Byte) : (s.setLowRegs bytes).faultCode = s.faultCode := rfl
@[simp] theorem State.setLowRegs_faultPc (bytes : List Byte) : (s.setLowRegs bytes).faultPc = s.faultPc := rfl
@[simp] theorem State.setLowRegs_halted (bytes : List Byte) : (s.setLowRegs bytes).halted = s.halted := rfl
@[simp] theorem State.setLowRegs_report (bytes : List Byte) : (s.setLowRegs bytes).report = s.report := rfl
@[simp] theorem State.setLowRegs_unknownPolicy (bytes : List Byte) : (s.setLowRegs bytes).unknownPolicy = s.unknownPolicy := rfl
@[simp] theorem State.setLowRegs_stackPolicy (bytes : List Byte) : (s.setLowRegs bytes).stackPolicy = s.stackPolicy := rfl
@[simp] theorem State.setLowRegs_inputs (bytes : List Byte) : (s.setLowRegs bytes).inputs = s.inputs := rfl
@[simp] theorem State.setLowRegs_cycle (bytes : List Byte) : (s.setLowRegs bytes).cycle = s.cycle := rfl
@[simp] theorem State.setLowRegs_loadable (bytes : List Byte) : (s.setLowRegs bytes).loadable = s.loadable := rfl
@[simp] theorem State.setLowRegs_started (bytes : List Byte) : (s.setLowRegs bytes).started = s.started := rfl
@[simp] theorem State.setLowRegs_input (bytes : List Byte) : (s.setLowRegs bytes).input = s.input := rfl

/-! ### setIndex -/

@[simp] theorem State.setIndex_v (w : Word) : (s.setIndex w).v = s.v := rfl
@[simp] theorem State.setIndex_index (w : Word) : (s.setIndex w).index = w := rfl
@[simp] theorem State.setIndex_pc (w : Word) : (s.setIndex w).pc = s.pc := rfl
@[simp] theorem State.setIndex_stack (w : Word) : (s.setIndex w).stack = s.stack := rfl
@[simp] theorem State.setIndex_sp (w : Word) : (s.setIndex w).sp = s.sp := rfl
@[simp] theorem State.setIndex_dt (w : Word) : (s.setIndex w).dt = s.dt := rfl
@[simp] theorem State.setIndex_st (w : Word) : (s.setIndex w).st = s.st := rfl
@[simp] theorem State.setIndex_mem (w : Word) : (s.setIndex w).mem = s.mem := rfl
@[simp] theorem State.setIndex_fb (w : Word) : (s.setIndex w).fb = s.fb := rfl
@[simp] theorem State.setIndex_ir (w : Word) : (s.setIndex w).ir = s.ir := rfl
@[simp] theorem State.setIndex_faultCode (w : Word) : (s.setIndex w).faultCode = s.faultCode := rfl
@[simp] theorem State.setIndex_faultPc (w : Word) : (s.setIndex w).faultPc = s.faultPc := rfl
@[simp] theorem State.setIndex_halted (w : Word) : (s.setIndex w).halted = s.halted := rfl
@[simp] theorem State.setIndex_report (w : Word) : (s.setIndex w).report = s.report := rfl
@[simp] theorem State.setIndex_unknownPolicy (w : Word) : (s.setIndex w).unknownPolicy = s.unknownPolicy := rfl
@[simp] theorem State.setIndex_stackPolicy (w : Word) : (s.setIndex w).stackPolicy = s.stackPolicy := rfl
@[simp] theorem State.setIndex_inputs (w : Word) : (s.setIndex w).inputs = s.inputs := rfl
@[simp] theorem State.setIndex_cycle (w : Word) : (s.setIndex w).cycle = s.cycle := rfl
@[simp] theorem State.setIndex_loadable (w : Word) : (s.setIndex w).loadable = s.loadable := rfl
@[simp] theorem State.setIndex_started (w : Word) : (s.setIndex w).started = s.started := rfl
@[simp] theorem State.setIndex_reg (w : Word) (r : Reg) : (s.setIndex w).reg r = s.reg r := rfl
@[simp] theorem State.setIndex_input (w : Word) : (s.setIndex w).input = s.input := rfl

/-! ### setPc -/

@[simp] theorem State.setPc_v (w : Word) : (s.setPc w).v = s.v := rfl
@[simp] theorem State.setPc_index (w : Word) : (s.setPc w).index = s.index := rfl
@[simp] theorem State.setPc_pc (w : Word) : (s.setPc w).pc = w := rfl
@[simp] theorem State.setPc_stack (w : Word) : (s.setPc w).stack = s.stack := rfl
@[simp] theorem State.setPc_sp (w : Word) : (s.setPc w).sp = s.sp := rfl
@[simp] theorem State.setPc_dt (w : Word) : (s.setPc w).dt = s.dt := rfl
@[simp] theorem State.setPc_st (w : Word) : (s.setPc w).st = s.st := rfl
@[simp] theorem State.setPc_mem (w : Word) : (s.setPc w).mem = s.mem := rfl
@[simp] theorem State.setPc_fb (w : Word) : (s.setPc w).fb = s.fb := rfl
@[simp] theorem State.setPc_ir (w : Word) : (s.setPc w).ir = s.ir := rfl
@[simp] theorem State.setPc_faultCode (w : Word) : (s.setPc w).faultCode = s.faultCode := rfl
@[simp] theorem State.setPc_faultPc (w : Word) : (s.setPc w).faultPc = s.faultPc := rfl
@[simp] theorem State.setPc_halted (w : Word) : (s.setPc w).halted = s.halted := rfl
@[simp] theorem State.setPc_report (w : Word) : (s.setPc w).report = s.report := rfl
@[simp] theorem State.setPc_unknownPolicy (w : Word) : (s.setPc w).unknownPolicy = s.unknownPolicy := rfl
@[simp] theorem State.setPc_stackPolicy (w : Word) : (s.setPc w).stackPolicy = s.stackPolicy := rfl
@[simp] theorem State.setPc_inputs (w : Word) : (s.setPc w).inputs = s.inputs := rfl
@[simp] theorem State.setPc_cycle (w : Word) : (s.setPc w).cycle = s.cycle := rfl
@[simp] theorem State.setPc_loadable (w : Word) : (s.setPc w).loadable = s.loadable := rfl
@[simp] theorem State.setPc_started (w : Word) : (s.setPc w).started = s.started := rfl
@[simp] theorem State.setPc_reg (w : Word) (r : Reg) : (s.setPc w).reg r = s.reg r := rfl
@[simp] theorem State.setPc_input (w : Word) : (s.setPc w).input = s.input := rfl

/-! ### setDT -/

@[simp] theorem State.setDT_v (b : Byte) : (s.setDT b).v = s.v := rfl
@[simp] theorem State.setDT_index (b : Byte) : (s.setDT b).index = s.index := rfl
@[simp] theorem State.setDT_pc (b : Byte) : (s.setDT b).pc = s.pc := rfl
@[simp] theorem State.setDT_stack (b : Byte) : (s.setDT b).stack = s.stack := rfl
@[simp] theorem State.setDT_sp (b : Byte) : (s.setDT b).sp = s.sp := rfl
@[simp] theorem State.setDT_dt (b : Byte) : (s.setDT b).dt = b := rfl
@[simp] theorem State.setDT_st (b : Byte) : (s.setDT b).st = s.st := rfl
@[simp] theorem State.setDT_mem (b : Byte) : (s.setDT b).mem = s.mem := rfl
@[simp] theorem State.setDT_fb (b : Byte) : (s.setDT b).fb = s.fb := rfl
@[simp] theorem State.setDT_ir (b : Byte) : (s.setDT b).ir = s.ir := rfl
@[simp] theorem State.setDT_faultCode (b : Byte) : (s.setDT b).faultCode = s.faultCode := rfl
@[simp] theorem State.setDT_faultPc (b : Byte) : (s.setDT b).faultPc = s.faultPc := rfl
@[simp] theorem State.setDT_halted (b : Byte) : (s.setDT b).halted = s.halted := rfl
@[simp] theorem State.setDT_report (b : Byte) : (s.setDT b).report = s.report := rfl
@[simp] theorem State.setDT_unknownPolicy (b : Byte) : (s.setDT b).unknownPolicy = s.unknownPolicy := rfl
@[simp] theorem State.setDT_stackPolicy (b : Byte) : (s.setDT b).stackPolicy = s.stackPolicy := rfl
@[simp] theorem State.setDT_inputs (b : Byte) : (s.setDT b).inputs = s.inputs := rfl
@[simp] theorem State.setDT_cycle (b : Byte) : (s.setDT b).cycle = s.cycle := rfl
@[simp] theorem State.setDT_loadable (b : Byte) : (s.setDT b).loadable = s.loadable := rfl
@[simp] theorem State.setDT_started (b : Byte) : (s.setDT b).started = s.started := rfl
@[simp] theorem State.setDT_reg (b : Byte) (r : Reg) : (s.setDT b).reg r = s.reg r := rfl
@[simp] theorem State.setDT_input (b : Byte) : (s.setDT b).input = s.input := rfl

/-! ### setST -/

@[simp] theorem State.setST_v (b : Byte) : (s.setST b).v = s.v := rfl
@[simp] theorem State.setST_index (b : Byte) : (s.setST b).index = s.index := rfl
@[simp] theorem State.setST_pc (b : Byte) : (s.setST b).pc = s.pc := rfl
@[simp] theorem State.setST_stack (b : Byte) : (s.setST b).stack = s.stack := rfl
@[simp] theorem State.setST_sp (b : Byte) : (s.setST b).sp = s.sp := rfl
@[simp] theorem State.setST_dt (b : Byte) : (s.setST b).dt = s.dt := rfl
@[simp] theorem State.setST_st (b : Byte) : (s.setST b).st = b := rfl
@[simp] theorem State.setST_mem (b : Byte) : (s.setST b).mem = s.mem := rfl
@[simp] theorem State.setST_fb (b : Byte) : (s.setST b).fb = s.fb := rfl
@[simp] theorem State.setST_ir (b : Byte) : (s.setST b).ir = s.ir := rfl
@[simp] theorem State.setST_faultCode (b : Byte) : (s.setST b).faultCode = s.faultCode := rfl
@[simp] theorem State.setST_faultPc (b : Byte) : (s.setST b).faultPc = s.faultPc := rfl
@[simp] theorem State.setST_halted (b : Byte) : (s.setST b).halted = s.halted := rfl
@[simp] theorem State.setST_report (b : Byte) : (s.setST b).report = s.report := rfl
@[simp] theorem State.setST_unknownPolicy (b : Byte) : (s.setST b).unknownPolicy = s.unknownPolicy := rfl
@[simp] theorem State.setST_stackPolicy (b : Byte) : (s.setST b).stackPolicy = s.stackPolicy := rfl
@[simp] theorem State.setST_inputs (b : Byte) : (s.setST b).inputs = s.inputs := rfl
@[simp] theorem State.setST_cycle (b : Byte) : (s.setST b).cycle = s.cycle := rfl
@[simp] theorem State.setST_loadable (b : Byte) : (s.setST b).loadable = s.loadable := rfl
@[simp] theorem State.setST_started (b : Byte) : (s.setST b).started = s.started := rfl
@[simp] theorem State.setST_reg (b : Byte) (r : Reg) : (s.setST b).reg r = s.reg r := rfl
@[simp] theorem State.setST_input (b : Byte) : (s.setST b).input = s.input := rfl

/-! ### setMem -/

@[simp] theorem State.setMem_v (m : Memory) : (s.setMem m).v = s.v := rfl
@[simp] theorem State.setMem_index (m : Memory) : (s.setMem m).index = s.index := rfl
@[simp] theorem State.setMem_pc (m : Memory) : (s.setMem m).pc = s.pc := rfl
@[simp] theorem State.setMem_stack (m : Memory) : (s.setMem m).stack = s.stack := rfl
@[simp] theorem State.setMem_sp (m : Memory) : (s.setMem m).sp = s.sp := rfl
@[simp] theorem State.setMem_dt (m : Memory) : (s.setMem m).dt = s.dt := rfl
@[simp] theorem State.setMem_st (m : Memory) : (s.setMem m).st = s.st := rfl
@[simp] theorem State.setMem_mem (m : Memory) : (s.setMem m).mem = m := rfl
@[simp] theorem State.setMem_fb (m : Memory) : (s.setMem m).fb = s.fb := rfl
@[simp] theorem State.setMem_ir (m : Memory) : (s.setMem m).ir = s.ir := rfl
@[simp] theorem State.setMem_faultCode (m : Memory) : (s.setMem m).faultCode = s.faultCode := rfl
@[simp] theorem State.setMem_faultPc (m : Memory) : (s.setMem m).faultPc = s.faultPc := rfl
@[simp] theorem State.setMem_halted (m : Memory) : (s.setMem m).halted = s.halted := rfl
@[simp] theorem State.setMem_report (m : Memory) : (s.setMem m).report = s.report := rfl
@[simp] theorem State.setMem_unknownPolicy (m : Memory) : (s.setMem m).unknownPolicy = s.unknownPolicy := rfl
@[simp] theorem State.setMem_stackPolicy (m : Memory) : (s.setMem m).stackPolicy = s.stackPolicy := rfl
@[simp] theorem State.setMem_inputs (m : Memory) : (s.setMem m).inputs = s.inputs := rfl
@[simp] theorem State.setMem_cycle (m : Memory) : (s.setMem m).cycle = s.cycle := rfl
@[simp] theorem State.setMem_loadable (m : Memory) : (s.setMem m).loadable = s.loadable := rfl
@[simp] theorem State.setMem_started (m : Memory) : (s.setMem m).started = s.started := rfl
@[simp] theorem State.setMem_reg (m : Memory) (r : Reg) : (s.setMem m).reg r = s.reg r := rfl
@[simp] theorem State.setMem_input (m : Memory) : (s.setMem m).input = s.input := rfl

/-! ### setFb -/

@[simp] theorem State.setFb_v (f : Framebuffer) : (s.setFb f).v = s.v := rfl
@[simp] theorem State.setFb_index (f : Framebuffer) : (s.setFb f).index = s.index := rfl
@[simp] theorem State.setFb_pc (f : Framebuffer) : (s.setFb f).pc = s.pc := rfl
@[simp] theorem State.setFb_stack (f : Framebuffer) : (s.setFb f).stack = s.stack := rfl
@[simp] theorem State.setFb_sp (f : Framebuffer) : (s.setFb f).sp = s.sp := rfl
@[simp] theorem State.setFb_dt (f : Framebuffer) : (s.setFb f).dt = s.dt := rfl
@[simp] theorem State.setFb_st (f : Framebuffer) : (s.setFb f).st = s.st := rfl
@[simp] theorem State.setFb_mem (f : Framebuffer) : (s.setFb f).mem = s.mem := rfl
@[simp] theorem State.setFb_fb (f : Framebuffer) : (s.setFb f).fb = f := rfl
@[simp] theorem State.setFb_ir (f : Framebuffer) : (s.setFb f).ir = s.ir := rfl
@[simp] theorem State.setFb_faultCode (f : Framebuffer) : (s.setFb f).faultCode = s.faultCode := rfl
@[simp] theorem State.setFb_faultPc (f : Framebuffer) : (s.setFb f).faultPc = s.faultPc := rfl
@[simp] theorem State.setFb_halted (f : Framebuffer) : (s.setFb f).halted = s.halted := rfl
@[simp] theorem State.setFb_report (f : Framebuffer) : (s.setFb f).report = s.report := rfl
@[simp] theorem State.setFb_unknownPolicy (f : Framebuffer) : (s.setFb f).unknownPolicy = s.unknownPolicy := rfl
@[simp] theorem State.setFb_stackPolicy (f : Framebuffer) : (s.setFb f).stackPolicy = s.stackPolicy := rfl
@[simp] theorem State.setFb_inputs (f : Framebuffer) : (s.setFb f).inputs = s.inputs := rfl
@[simp] theorem State.setFb_cycle (f : Framebuffer) : (s.setFb f).cycle = s.cycle := rfl
@[simp] theorem State.setFb_loadable (f : Framebuffer) : (s.setFb f).loadable = s.loadable := rfl
@[simp] theorem State.setFb_started (f : Framebuffer) : (s.setFb f).started = s.started := rfl
@[simp] theorem State.setFb_reg (f : Framebuffer) (r : Reg) : (s.setFb f).reg r = s.reg r := rfl
@[simp] theorem State.setFb_input (f : Framebuffer) : (s.setFb f).input = s.input := rfl

/-! ### setPolicies -/

@[simp] theorem State.setPolicies_v (u k : FaultPolicy) : (s.setPolicies u k).v = s.v := rfl
@[simp] theorem State.setPolicies_index (u k : FaultPolicy) : (s.setPolicies u k).index = s.index := rfl
@[simp] theorem State.setPolicies_pc (u k : FaultPolicy) : (s.setPolicies u k).pc = s.pc := rfl
@[simp] theorem State.setPolicies_stack (u k : FaultPolicy) : (s.setPolicies u k).stack = s.stack := rfl
@[simp] theorem State.setPolicies_sp (u k : FaultPolicy) : (s.setPolicies u k).sp = s.sp := rfl
@[simp] theorem State.setPolicies_dt (u k : FaultPolicy) : (s.setPolicies u k).dt = s.dt := rfl
@[simp] theorem State.setPolicies_st (u k : FaultPolicy) : (s.setPolicies u k).st = s.st := rfl
@[simp] theorem State.setPolicies_mem (u k : FaultPolicy) : (s.setPolicies u k).mem = s.mem := rfl
@[simp] theorem State.setPolicies_fb (u k : FaultPolicy) : (s.setPolicies u k).fb = s.fb := rfl
@[simp] theorem State.setPolicies_ir (u k : FaultPolicy) : (s.setPolicies u k).ir = s.ir := rfl
@[simp] theorem State.setPolicies_faultCode (u k : FaultPolicy) : (s.setPolicies u k).faultCode = s.faultCode := rfl
@[simp] theorem State.setPolicies_faultPc (u k : FaultPolicy) : (s.setPolicies u k).faultPc = s.faultPc := rfl
@[simp] theorem State.setPolicies_halted (u k : FaultPolicy) : (s.setPolicies u k).halted = s.halted := rfl
@[simp] theorem State.setPolicies_report (u k : FaultPolicy) : (s.setPolicies u k).report = s.report := rfl
@[simp] theorem State.setPolicies_unknownPolicy (u k : FaultPolicy) : (s.setPolicies u k).unknownPolicy = u := rfl
@[simp] theorem State.setPolicies_stackPolicy (u k : FaultPolicy) : (s.setPolicies u k).stackPolicy = k := rfl
@[simp] theorem State.setPolicies_inputs (u k : FaultPolicy) : (s.setPolicies u k).inputs = s.inputs := rfl
@[simp] theorem State.setPolicies_cycle (u k : FaultPolicy) : (s.setPolicies u k).cycle = s.cycle := rfl
@[simp] theorem State.setPolicies_loadable (u k : FaultPolicy) : (s.setPolicies u k).loadable = s.loadable := rfl
@[simp] theorem State.setPolicies_started (u k : FaultPolicy) : (s.setPolicies u k).started = s.started := rfl
@[simp] theorem State.setPolicies_reg (u k : FaultPolicy) (r : Reg) : (s.setPolicies u k).reg r = s.reg r := rfl
@[simp] theorem State.setPolicies_input (u k : FaultPolicy) : (s.setPolicies u k).input = s.input := rfl

/-! ### skipIf -/

@[simp] theorem State.skipIf_v (c : Bool) : (s.skipIf c).v = s.v := rfl
@[simp] theorem State.skipIf_index (c : Bool) : (s.skipIf c).index = s.index := rfl
@[simp] theorem State.skipIf_pc (c : Bool) : (s.skipIf c).pc = if c then s.pc + 2 else s.pc := rfl
@[simp] theorem State.skipIf_stack (c : Bool) : (s.skipIf c).stack = s.stack := rfl
@[simp] theorem State.skipIf_sp (c : Bool) : (s.skipIf c).sp = s.sp := rfl
@[simp] theorem State.skipIf_dt (c : Bool) : (s.skipIf c).dt = s.dt := rfl
@[simp] theorem State.skipIf_st (c : Bool) : (s.skipIf c).st = s.st := rfl
@[simp] theorem State.skipIf_mem (c : Bool) : (s.skipIf c).mem = s.mem := rfl
@[simp] theorem State.skipIf_fb (c : Bool) : (s.skipIf c).fb = s.fb := rfl
@[simp] theorem State.skipIf_ir (c : Bool) : (s.skipIf c).ir = s.ir := rfl
@[simp] theorem State.skipIf_faultCode (c : Bool) : (s.skipIf c).faultCode = s.faultCode := rfl
@[simp] theorem State.skipIf_faultPc (c : Bool) : (s.skipIf c).faultPc = s.faultPc := rfl
@[simp] theorem State.skipIf_halted (c : Bool) : (s.skipIf c).halted = s.halted := rfl
@[simp] theorem State.skipIf_report (c : Bool) : (s.skipIf c).report = s.report := rfl
@[simp] theorem State.skipIf_unknownPolicy (c : Bool) : (s.skipIf c).unknownPolicy = s.unknownPolicy := rfl
@[simp] theorem State.skipIf_stackPolicy (c : Bool) : (s.skipIf c).stackPolicy = s.stackPolicy := rfl
@[simp] theorem State.skipIf_inputs (c : Bool) : (s.skipIf c).inputs = s.inputs := rfl
@[simp] theorem State.skipIf_cycle (c : Bool) : (s.skipIf c).cycle = s.cycle := rfl
@[simp] theorem State.skipIf_loadable (c : Bool) : (s.skipIf c).loadable = s.loadable := rfl
@[simp] theorem State.skipIf_started (c : Bool) : (s.skipIf c).started = s.started := rfl
@[simp] theorem State.skipIf_reg (c : Bool) (r : Reg) : (s.skipIf c).reg r = s.reg r := rfl
@[simp] theorem State.skipIf_input (c : Bool) : (s.skipIf c).input = s.input := rfl

/-! ### setFlag -/

@[simp] theorem State.setFlag_v (c : Bool) : (s.setFlag c).v = s.v.set vF.val (flagByte c) := rfl
@[simp] theorem State.setFlag_index (c : Bool) : (s.setFlag c).index = s.index := rfl
@[simp] theorem State.setFlag_pc (c : Bool) : (s.setFlag c).pc = s.pc := rfl
@[simp] theorem State.setFlag_stack (c : Bool) : (s.setFlag c).stack = s.stack := rfl
@[simp] theorem State.setFlag_sp (c : Bool) : (s.setFlag c).sp = s.sp := rfl
@[simp] theorem State.setFlag_dt (c : Bool) : (s.setFlag c).dt = s.dt := rfl
@[simp] theorem State.setFlag_st (c : Bool) : (s.setFlag c).st = s.st := rfl
@[simp] theorem State.setFlag_mem (c : Bool) : (s.setFlag c).mem = s.mem := rfl
@[simp] theorem State.setFlag_fb (c : Bool) : (s.setFlag c).fb = s.fb := rfl
@[simp] theorem State.setFlag_ir (c : Bool) : (s.setFlag c).ir = s.ir := rfl
@[simp] theorem State.setFlag_faultCode (c : Bool) : (s.setFlag c).faultCode = s.faultCode := rfl
@[simp] theorem State.setFlag_faultPc (c : Bool) : (s.setFlag c).faultPc = s.faultPc := rfl
@[simp] theorem State.setFlag_halted (c : Bool) : (s.setFlag c).halted = s.halted := rfl
@[simp] theorem State.setFlag_report (c : Bool) : (s.setFlag c).report = s.report := rfl
@[simp] theorem State.setFlag_unknownPolicy (c : Bool) : (s.setFlag c).unknownPolicy = s.unknownPolicy := rfl
@[simp] theorem State.setFlag_stackPolicy (c : Bool) : (s.setFlag c).stackPolicy = s.stackPolicy := rfl
@[simp] theorem State.setFlag_inputs (c : Bool) : (s.setFlag c).inputs = s.inputs := rfl
@[simp] theorem State.setFlag_cycle (c : Bool) : (s.setFlag c).cycle = s.cycle := rfl
@[simp] theorem State.setFlag_loadable (c : Bool) : (s.setFlag c).loadable = s.loadable := rfl
@[simp] theorem State.setFlag_started (c : Bool) : (s.setFlag c).started = s.started := rfl
@[simp] theorem State.setFlag_input (c : Bool) : (s.setFlag c).input = s.input := rfl

/-! ### recordFault -/

@[simp] theorem State.recordFault_v (k : FaultKind) (p : Word) (d : Option Nat) (f : Bool) : (s.recordFault k p d f).v = s.v := rfl
@[simp] theorem State.recordFault_index (k : FaultKind) (p : Word) (d : Option Nat) (f : Bool) : (s.recordFault k p d f).index = s.index := rfl
@[simp] theorem State.recordFault_pc (k : FaultKind) (p : Word) (d : Option Nat) (f : Bool) : (s.recordFault k p d f).pc = s.pc := rfl
@[simp] theorem State.recordFault_stack (k : FaultKind) (p : Word) (d : Option Nat) (f : Bool) : (s.recordFault k p d f).stack = s.stack := rfl
@[simp] theorem State.recordFault_sp (k : FaultKind) (p : Word) (d : Option Nat) (f : Bool) : (s.recordFault k p d f).sp = s.sp := rfl
@[simp] theorem State.recordFault_dt (k : FaultKind) (p : Word) (d : Option Nat) (f : Bool) : (s.recordFault k p d f).dt = s.dt := rfl
@[simp] theorem State.recordFault_st (k : FaultKind) (p : Word) (d : Option Nat) (f : Bool) : (s.recordFault k p d f).st = s.st := rfl
@[simp] theorem State.recordFault_mem (k : FaultKind) (p : Word) (d : Option Nat) (f : Bool) : (s.recordFault k p d f).mem = s.mem := rfl
@[simp] theorem State.recordFault_fb (k : FaultKind) (p : Word) (d : Option Nat) (f : Bool) : (s.recordFault k p d f).fb = s.fb := rfl
@[simp] theorem State.recordFault_ir (k : FaultKind) (p : Word) (d : Option Nat) (f : Bool) : (s.recordFault k p d f).ir = s.ir := rfl
@[simp] theorem State.recordFault_faultCode (k : FaultKind) (p : Word) (d : Option Nat) (f : Bool) : (s.recordFault k p d f).faultCode = some k := rfl
@[simp] theorem State.recordFault_faultPc (k : FaultKind) (p : Word) (d : Option Nat) (f : Bool) : (s.recordFault k p d f).faultPc = p := rfl
@[simp] theorem State.recordFault_halted (k : FaultKind) (p : Word) (d : Option Nat) (f : Bool) : (s.recordFault k p d f).halted = (s.halted || f) := rfl
@[simp] theorem State.recordFault_report (k : FaultKind) (p : Word) (d : Option Nat) (f : Bool) : (s.recordFault k p d f).report = some ⟨k, p, s.ir, d⟩ := rfl
@[simp] theorem State.recordFault_unknownPolicy (k : FaultKind) (p : Word) (d : Option Nat) (f : Bool) : (s.recordFault k p d f).unknownPolicy = s.unknownPolicy := rfl
@[simp] theorem State.recordFault_stackPolicy (k : FaultKind) (p : Word) (d : Option Nat) (f : Bool) : (s.recordFault k p d f).stackPolicy = s.stackPolicy := rfl
@[simp] theorem State.recordFault_inputs (k : FaultKind) (p : Word) (d : Option Nat) (f : Bool) : (s.recordFault k p d f).inputs = s.inputs := rfl
@[simp] theorem State.recordFault_cycle (k : FaultKind) (p : Word) (d : Option Nat) (f : Bool) : (s.recordFault k p d f).cycle = s.cycle := rfl
@[simp] theorem State.recordFault_loadable (k : FaultKind) (p : Word) (d : Option Nat) (f : Bool) : (s.recordFault k p d f).loadable = s.loadable := rfl
@[simp] theorem State.recordFault_started (k : FaultKind) (p : Word) (d : Option Nat) (f : Bool) : (s.recordFault k p d f).started = s.started := rfl
@[simp] theorem State.recordFault_reg (k : FaultKind) (p : Word) (d : Option Nat) (f : Bool) (r : Reg) : (s.recordFault k p d f).reg r = s.reg r := rfl
@[simp] theorem State.recordFault_input (k : FaultKind) (p : Word) (d : Option Nat) (f : Bool) : (s.recordFault k p d f).input = s.input := rfl

/-! ### raise -/

@[simp] theorem State.raise_v (k : FaultKind) (d : Option Nat) : (s.raise k d).v = s.v := rfl
@[simp] theorem State.raise_index (k : FaultKind) (d : Option Nat) : (s.raise k d).index = s.index := rfl
@[simp] theorem State.raise_pc (k : FaultKind) (d : Option Nat) : (s.raise k d).pc = s.pc := rfl
@[simp] theorem State.raise_stack (k : FaultKind) (d : Option Nat) : (s.raise k d).stack = s.stack := rfl
@[simp] theorem State.raise_sp (k : FaultKind) (d : Option Nat) : (s.raise k d).sp = s.sp := rfl
@[simp] theorem State.raise_dt (k : FaultKind) (d : Option Nat) : (s.raise k d).dt = s.dt := rfl
@[simp] theorem State.raise_st (k : FaultKind) (d : Option Nat) : (s.raise k d).st = s.st := rfl
@[simp] theorem State.raise_mem (k : FaultKind) (d : Option Nat) : (s.raise k d).mem = s.mem := rfl
@[simp] theorem State.raise_fb (k : FaultKind) (d : Option Nat) : (s.raise k d).fb = s.fb := rfl
@[simp] theorem State.raise_ir (k : FaultKind) (d : Option Nat) : (s.raise k d).ir = s.ir := rfl
@[simp] theorem State.raise_faultCode (k : FaultKind) (d : Option Nat) : (s.raise k d).faultCode = some k := rfl
@[simp] theorem State.raise_faultPc (k : FaultKind) (d : Option Nat) : (s.raise k d).faultPc = s.pc - 2 := rfl
@[simp] theorem State.raise_halted (k : FaultKind) (d : Option Nat) : (s.raise k d).halted = (s.halted || true) := rfl
@[simp] theorem State.raise_report (k : FaultKind) (d : Option Nat) : (s.raise k d).report = some ⟨k, s.pc - 2, s.ir, d⟩ := rfl
@[simp] theorem State.raise_unknownPolicy (k : FaultKind) (d : Option Nat) : (s.raise k d).unknownPolicy = s.unknownPolicy := rfl
@[simp] theorem State.raise_stackPolicy (k : FaultKind) (d : Option Nat) : (s.raise k d).stackPolicy = s.stackPolicy := rfl
@[simp] theorem State.raise_inputs (k : FaultKind) (d : Option Nat) : (s.raise k d).inputs = s.inputs := rfl
@[simp] theorem State.raise_cycle (k : FaultKind) (d : Option Nat) : (s.raise k d).cycle = s.cycle := rfl
@[simp] theorem State.raise_loadable (k : FaultKind) (d : Option Nat) : (s.raise k d).loadable = s.loadable := rfl
@[simp] theorem State.raise_started (k : FaultKind) (d : Option Nat) : (s.raise k d).started = s.started := rfl
@[simp] theorem State.raise_reg (k : FaultKind) (d : Option Nat) (r : Reg) : (s.raise k d).reg r = s.reg r := rfl
@[simp] theorem State.raise_input (k : FaultKind) (d : Option Nat) : (s.raise k d).input = s.input := rfl

/-! ### afterFetch -/

@[simp] theorem State.afterFetch_v (w : Word) : (s.afterFetch w).v = s.v := rfl
@[simp] theorem State.afterFetch_index (w : Word) : (s.afterFetch w).index = s.index := rfl
@[simp] theorem State.afterFetch_pc (w : Word) : (s.afterFetch w).pc = s.pc + 2 := rfl
@[simp] theorem State.afterFetch_stack (w : Word) : (s.afterFetch w).stack = s.stack := rfl
@[simp] theorem State.afterFetch_sp (w : Word) : (s.afterFetch w).sp = s.sp := rfl
@[simp] theorem State.afterFetch_dt (w : Word) : (s.afterFetch w).dt = s.dt := rfl
@[simp] theorem State.afterFetch_st (w : Word) : (s.afterFetch w).st = s.st := rfl
@[simp] theorem State.afterFetch_mem (w : Word) : (s.afterFetch w).mem = s.mem := rfl
@[simp] theorem State.afterFetch_fb (w : Word) : (s.afterFetch w).fb = s.fb := rfl
@[simp] theorem State.afterFetch_ir (w : Word) : (s.afterFetch w).ir = w := rfl
@[simp] theorem State.afterFetch_faultCode (w : Word) : (s.afterFetch w).faultCode = s.faultCode := rfl
@[simp] theorem State.afterFetch_faultPc (w : Word) : (s.afterFetch w).faultPc = s.faultPc := rfl
@[simp] theorem State.afterFetch_halted (w : Word) : (s.afterFetch w).halted = s.halted := rfl
@[simp] theorem State.afterFetch_report (w : Word) : (s.afterFetch w).report = none := rfl
@[simp] theorem State.afterFetch_unknownPolicy (w : Word) : (s.afterFetch w).unknownPolicy = s.unknownPolicy := rfl
@[simp] theorem State.afterFetch_stackPolicy (w : Word) : (s.afterFetch w).stackPolicy = s.stackPolicy := rfl
@[simp] theorem State.afterFetch_inputs (w : Word) : (s.afterFetch w).inputs = s.inputs := rfl
@[simp] theorem State.afterFetch_cycle (w : Word) : (s.afterFetch w).cycle = s.cycle := rfl
@[simp] theorem State.afterFetch_loadable (w : Word) : (s.afterFetch w).loadable = s.loadable := rfl
@[simp] theorem State.afterFetch_started (w : Word) : (s.afterFetch w).started = s.started := rfl
@[simp] theorem State.afterFetch_reg (w : Word) (r : Reg) : (s.afterFetch w).reg r = s.reg r := rfl
@[simp] theorem State.afterFetch_input (w : Word) : (s.afterFetch w).input = s.input := rfl

/-! ### tick -/

@[simp] theorem State.tick_v : s.tick.v = s.v := rfl
@[simp] theorem State.tick_index : s.tick.index = s.index := rfl
@[simp] theorem State.tick_pc : s.tick.pc = s.pc := rfl
@[simp] theorem State.tick_stack : s.tick.stack = s.stack := rfl
@[simp] theorem State.tick_sp : s.tick.sp = s.sp := rfl
@[simp] theorem State.tick_dt : s.tick.dt = tickTimer s.dt := rfl
@[simp] theorem State.tick_st : s.tick.st = tickTimer s.st := rfl
@[simp] theorem State.tick_mem : s.tick.mem = s.mem := rfl
@[simp] theorem State.tick_fb : s.tick.fb = s.fb := rfl
@[simp] theorem State.tick_ir : s.tick.ir = s.ir := rfl
@[simp] theorem State.tick_faultCode : s.tick.faultCode = s.faultCode := rfl
@[simp] theorem State.tick_faultPc : s.tick.faultPc = s.faultPc := rfl
@[simp] theorem State.tick_halted : s.tick.halted = s.halted := rfl
@[simp] theorem State.tick_report : s.tick.report = s.report := rfl
@[simp] theorem State.tick_unknownPolicy : s.tick.unknownPolicy = s.unknownPolicy := rfl
@[simp] theorem State.tick_stackPolicy : s.tick.stackPolicy = s.stackPolicy := rfl
@[simp] theorem State.tick_inputs : s.tick.inputs = s.inputs := rfl
@[simp] theorem State.tick_cycle : s.tick.cycle = s.cycle := rfl
@[simp] theorem State.tick_loadable : s.tick.loadable = s.loadable := rfl
@[simp] theorem State.tick_started : s.tick.started = s.started := rfl
@[simp] theorem State.tick_reg (r : Reg) : s.tick.reg r = s.reg r := rfl
@[simp] theorem State.tick_input : s.tick.input = s.input := rfl

/-! ### nextInputs -/

@[simp] theorem State.nextInputs_v : s.nextInputs.v = s.v := rfl
@[simp] theorem State.nextInputs_index : s.nextInputs.index = s.index := rfl
@[simp] theorem State.nextInputs_pc : s.nextInputs.pc = s.pc := rfl
@[simp] theorem State.nextInputs_stack : s.nextInputs.stack = s.stack := rfl
@[simp] theorem State.nextInputs_sp : s.nextInputs.sp = s.sp := rfl
@[simp] theorem State.nextInputs_dt : s.nextInputs.dt = s.dt := rfl
@[simp] theorem State.nextInputs_st : s.nextInputs.st = s.st := rfl
@[simp] theorem State.nextInputs_mem : s.nextInputs.mem = s.mem := rfl
@[simp] theorem State.nextInputs_fb : s.nextInputs.fb = s.fb := rfl
@[simp] theorem State.nextInputs_ir : s.nextInputs.ir = s.ir := rfl
@[simp] theorem State.nextInputs_faultCode : s.nextInputs.faultCode = s.faultCode := rfl
@[simp] theorem State.nextInputs_faultPc : s.nextInputs.faultPc = s.faultPc := rfl
@[simp] theorem State.nextInputs_halted : s.nextInputs.halted = s.halted := rfl
@[simp] theorem State.nextInputs_report : s.nextInputs.report = s.report := rfl
@[simp] theorem State.nextInputs_unknownPolicy : s.nextInputs.unknownPolicy = s.unknownPolicy := rfl
@[simp] theorem State.nextInputs_stackPolicy : s.nextInputs.stackPolicy = s.stackPolicy := rfl
@[simp] theorem State.nextInputs_inputs : s.nextInputs.inputs = s.inputs.tail := rfl
@[simp] theorem State.nextInputs_cycle : s.nextInputs.cycle = s.cycle + 1 := rfl
@[simp] theorem State.nextInputs_loadable : s.nextInputs.loadable = false := rfl
@[simp] theorem State.nextInputs_started : s.nextInputs.started = true := rfl
@[simp] theorem State.nextInputs_reg (r : Reg) : s.nextInputs.reg r = s.reg r := rfl

/-! ### Registers after a register write -/

@[simp] theorem State.setReg_reg (x : Reg) (b : Byte) (r : Reg) :
    (s.setReg x b).reg r = if r = x then b else s.reg r := by
  simp only [State.reg, State.setReg_v, Vector.getElem_set, Fin.ext_iff, eq_comm]

@[simp] theorem State.setFlag_reg (c : Bool) (r : Reg) :
    (s.setFlag c).reg r = if r = vF then flagByte c else s.reg r := State.setReg_reg s vF (flagByte c) r

@[simp] theorem State.setLowRegs_reg (bytes : List Byte) (r : Reg) :
    (s.setLowRegs bytes).reg r = bytes.getD r.val (s.reg r) := by
  simp [State.reg]

/-- Two states with the same registers have the same register file. -/
theorem State.v_ext_reg {s t : State} (h : ∀ r, t.reg r = s.reg r) : t.v = s.v := by
  apply Vector.ext
  intro k hk
  exact h ⟨k, hk⟩

/-- `V[i]` of the list of low registers (R198). -/
theorem State.lowRegs_getElem (n i : Nat) (hi : i < n) (hn : n ≤ 16) :
    (s.lowRegs n)[i]? = some (s.reg ⟨i, by omega⟩) := by
  have h : i < 16 := by omega
  simp [State.lowRegs, State.reg, hi, h]

@[simp] theorem State.lowRegs_length (n : Nat) (hn : n ≤ 16) : (s.lowRegs n).length = n := by
  simp [State.lowRegs, hn]

/-! ### End of a cycle -/

theorem State.endCycle_of_halted (h : s.halted = true) : s.endCycle = s.nextInputs := by
  simp [State.endCycle, h]

theorem State.endCycle_of_running (h : s.halted = false) : s.endCycle = s.tick.nextInputs := by
  simp [State.endCycle, h]

/-- A timer's tick counts down by 1 and sticks at 0 (R127). -/
theorem tickTimer_toNat (b : Byte) : (tickTimer b).toNat = b.toNat - 1 := by
  unfold tickTimer
  split
  · simp_all
  · bv_omega

end Sys2Proof.Machine
end

