-- ==== Sys2Proof/Laws/HostOps.lean ====
section
/-! SUPPORT. For each host operation that has a window, everything it can answer. -/

namespace Sys2Proof.Machine

/-- The parameters are set before the first cycle and refused after it (R284). -/
theorem State.configure_cases (s : State) (u k : FaultPolicy) :
    (s.started = false ∧ s.configure u k = .configured (s.setPolicies u k)) ∨
    (s.started = true ∧ s.configure u k = .refused .configureAfterFirstCycle) := by
  cases h : s.started <;> simp [State.configure, h]

/-- A load is refused outside its window, rejected when too large, or copies the program (R75 to R77). -/
theorem State.load_cases (s : State) (program : List Byte) :
    (s.loadable = false ∧ s.load program = .refused .loadOutsideWindow) ∨
    (s.loadable = true ∧ Config.maxProgram < program.length ∧ s.load program = .programTooLarge) ∨
    (s.loadable = true ∧ program.length ≤ Config.maxProgram ∧
      s.load program = .loaded { s with mem := s.mem.writeBlock Config.programBase program, loadable := false }) := by
  cases h : s.loadable
  · exact .inl ⟨rfl, by simp [State.load, h]⟩
  · by_cases hl : Config.maxProgram < program.length
    · exact .inr (.inl ⟨rfl, hl, by simp [State.load, h, hl]⟩)
    · exact .inr (.inr ⟨rfl, by omega, by simp [State.load, h, hl]⟩)

end Sys2Proof.Machine
end

