-- ==== Sys2Proof/Laws/Memory.lean ====
section
/-! SUPPORT. The laws of the memory: reads after writes, the canonical form, the font, and what the address checks
answer. -/

namespace Sys2Proof.Machine

@[simp] theorem Memory.read_nil (a : Nat) : Memory.read [] a = Memory.initial a := rfl

theorem Memory.read_cons (c : Host.Cell) (m : Memory) (a : Nat) :
    Memory.read (c :: m) a = if c.1 = a then c.2 else m.read a := rfl

/-- Below the first listed address a memory reads as it did at reset. -/
theorem Memory.read_of_lt (m : Memory) (a : Nat) (h : ∀ c ∈ m, a < c.1) : m.read a = Memory.initial a := by
  induction m with
  | nil => rfl
  | cons c rest ih =>
    have hc : c.1 ≠ a := Nat.ne_of_gt (h c (by simp))
    rw [Memory.read_cons, if_neg hc]
    exact ih fun d hd => h d (by simp [hd])

theorem Memory.read_consEntry_other {a a' : Nat} (b : Byte) (m : Memory) (h : a' ≠ a) :
    (Memory.cons a b m).read a' = m.read a' := by
  unfold Memory.cons
  split
  · rfl
  · rw [Memory.read_cons, if_neg (Ne.symm h)]

theorem Memory.read_consEntry_same (a : Nat) (b : Byte) (m : Memory) (h : ∀ c ∈ m, a < c.1) :
    (Memory.cons a b m).read a = b := by
  unfold Memory.cons
  split
  · rename_i hb
    rw [Memory.read_of_lt m a h, hb]
  · simp [Memory.read_cons]

/-- A write leaves every other address alone, in any list of entries. -/
theorem Memory.read_write_other (m : Memory) (a a' : Nat) (b : Byte) (h : a' ≠ a) :
    (m.write a b).read a' = m.read a' := by
  induction m with
  | nil => exact Memory.read_consEntry_other b [] h
  | cons c rest ih =>
    unfold Memory.write
    split
    · exact Memory.read_consEntry_other b _ h
    · split
      · rename_i hc
        rw [Memory.read_consEntry_other b rest h, Memory.read_cons, if_neg (by omega)]
      · rw [Memory.read_cons, Memory.read_cons, ih]

/-- The entries of a written memory are old ones or the new one. -/
theorem Memory.mem_write (m : Memory) (a : Nat) (b : Byte) (c : Host.Cell) (h : c ∈ m.write a b) :
    c ∈ m ∨ (c = (a, b) ∧ b ≠ Memory.initial a) := by
  induction m with
  | nil =>
    unfold Memory.write Memory.cons at h
    split at h <;> simp_all
  | cons d rest ih =>
    unfold Memory.write Memory.cons at h
    split at h
    · split at h
      · exact .inl h
      · rcases List.mem_cons.mp h with h | h
        · exact .inr ⟨h, ‹_›⟩
        · exact .inl h
    · split at h
      · split at h
        · exact .inl (List.mem_cons_of_mem _ h)
        · rcases List.mem_cons.mp h with h | h
          · exact .inr ⟨h, ‹_›⟩
          · exact .inl (List.mem_cons_of_mem _ h)
      · rcases List.mem_cons.mp h with h | h
        · exact .inl (by simp [h])
        · rcases ih h with h | h
          · exact .inl (List.mem_cons_of_mem _ h)
          · exact .inr h

/-- Every memory write keeps the canonical form. -/
theorem Memory.write_wf (m : Memory) (a : Nat) (b : Byte) (ha : a < Config.memSize) (h : m.wf) : (m.write a b).wf := by
  constructor
  · obtain ⟨hs, -⟩ := h
    induction m with
    | nil => unfold Memory.write Memory.cons; split <;> simp
    | cons c rest ih =>
      have hr := List.pairwise_cons.mp hs
      unfold Memory.write Memory.cons
      split
      · split
        · exact hs
        · refine List.pairwise_cons.mpr ⟨?_, hs⟩
          intro d hd
          rcases List.mem_cons.mp hd with rfl | hd
          · assumption
          · exact Nat.lt_trans ‹a < c.1› (hr.1 d hd)
      · split
        · rename_i hc
          split
          · exact hr.2
          · refine List.pairwise_cons.mpr ⟨?_, hr.2⟩
            intro d hd
            simpa [hc] using hr.1 d hd
        · refine List.pairwise_cons.mpr ⟨?_, ih hr.2⟩
          intro d hd
          rcases Memory.mem_write rest a b d hd with hd | ⟨rfl, -⟩
          · exact hr.1 d hd
          · simp only; omega
  · intro c hc
    rcases Memory.mem_write m a b c hc with hc | ⟨rfl, hb⟩
    · exact h.2 c hc
    · exact ⟨ha, hb⟩

/-- A read after a write to the same address gives the byte written. -/
theorem Memory.read_write_same (m : Memory) (a : Nat) (b : Byte) (h : m.wf) : (m.write a b).read a = b := by
  obtain ⟨hs, -⟩ := h
  induction m with
  | nil => exact Memory.read_consEntry_same a b [] (by simp)
  | cons c rest ih =>
    have hr := List.pairwise_cons.mp hs
    unfold Memory.write
    split
    · refine Memory.read_consEntry_same a b _ ?_
      intro d hd
      rcases List.mem_cons.mp hd with rfl | hd
      · assumption
      · exact Nat.lt_trans ‹a < c.1› (hr.1 d hd)
    · split
      · rename_i hc
        exact Memory.read_consEntry_same a b rest fun d hd => hc ▸ hr.1 d hd
      · rw [Memory.read_cons, if_neg (by omega), ih hr.2]

/-- A block write leaves every address outside the block alone. -/
theorem Memory.read_writeBlock_other (m : Memory) (base : Nat) (bytes : List Byte) (a : Nat)
    (h : a < base ∨ base + bytes.length ≤ a) : (m.writeBlock base bytes).read a = m.read a := by
  induction bytes generalizing m base with
  | nil => rfl
  | cons b rest ih =>
    simp only [List.length_cons] at h
    rw [Memory.writeBlock, ih _ _ (by omega), Memory.read_write_other _ _ _ _ (by omega)]

theorem Memory.writeBlock_wf (m : Memory) (base : Nat) (bytes : List Byte)
    (ha : base + bytes.length ≤ Config.memSize) (h : m.wf) : (m.writeBlock base bytes).wf := by
  induction bytes generalizing m base with
  | nil => exact h
  | cons b rest ih =>
    simp only [List.length_cons] at ha
    exact ih _ _ (by omega) (Memory.write_wf m base b (by omega) h)

/-- A block write puts the k-th byte at the k-th address. -/
theorem Memory.read_writeBlock_same (m : Memory) (base : Nat) (bytes : List Byte) (k : Nat) (hk : k < bytes.length)
    (ha : base + bytes.length ≤ Config.memSize) (h : m.wf) :
    (m.writeBlock base bytes).read (base + k) = bytes[k] := by
  induction bytes generalizing m base k with
  | nil => simp at hk
  | cons b rest ih =>
    simp only [List.length_cons] at ha hk
    rw [Memory.writeBlock]
    cases k with
    | zero =>
      rw [Memory.read_writeBlock_other _ _ _ _ (by omega)]
      exact Memory.read_write_same m base b h
    | succ k =>
      have := ih (m.write base b) (base + 1) k (by omega) (by omega) (Memory.write_wf m base b (by omega) h)
      simpa [Nat.add_assoc, Nat.add_comm 1 k] using this

/-- A block write above the font leaves every font byte alone. -/
theorem Memory.read_writeBlock_font (m : Memory) (base : Nat) (bytes : List Byte) (hb : Config.fontSize ≤ base) (a : Nat)
    (ha : a < Config.fontSize) : (m.writeBlock base bytes).read a = m.read a :=
  Memory.read_writeBlock_other m base bytes a (.inl (by omega))

/-! ### Address checks -/

@[simp] theorem mem_addressSpan (base count a : Nat) : a ∈ addressSpan base count ↔ base ≤ a ∧ a < base + count := by
  simp [addressSpan, List.mem_range'_1]

@[simp] theorem addressSpan_length (base count : Nat) : (addressSpan base count).length = count := by
  simp [addressSpan]

theorem addressSpan_getElem? (base count k : Nat) (hk : k < count) : (addressSpan base count)[k]? = some (base + k) := by
  simp [addressSpan, hk]

/-- No address of the span is out of range exactly when the span is empty or ends inside `mem` (R66). -/
theorem firstOutOfRange_span_none (base count : Nat) :
    firstOutOfRange (addressSpan base count) = none ↔ count = 0 ∨ base + count ≤ Config.memSize := by
  simp only [firstOutOfRange, List.find?_eq_none, mem_addressSpan, decide_eq_true_eq, and_imp]
  constructor
  · intro h
    by_contra hc
    have := h (base + count - 1) (by omega) (by omega)
    omega
  · intro h a h1 h2
    omega

/-- The offending address of a span that leaves `mem` is its first address above 0x0FFF. -/
theorem firstOutOfRange_span_some (base count : Nat) (hc : 0 < count) (h : Config.memSize < base + count) :
    firstOutOfRange (addressSpan base count) = some (max base Config.memSize) := by
  induction count generalizing base with
  | zero => omega
  | succ n ih =>
    simp only [firstOutOfRange, addressSpan, List.range'_succ, List.find?_cons]
    by_cases hb : Config.memSize ≤ base
    · simp [hb]
    · simp only [hb, decide_false]
      have := ih (base + 1) (by omega) (by omega)
      simp only [firstOutOfRange, addressSpan] at this
      rw [this]
      congr 1
      omega

theorem firstInFont_span_none (base count : Nat) :
    firstInFont (addressSpan base count) = none ↔ count = 0 ∨ Config.fontSize ≤ base := by
  simp only [firstInFont, List.find?_eq_none, mem_addressSpan, decide_eq_true_eq, and_imp]
  constructor
  · intro h
    by_contra hc
    have := h base (by omega) (by omega)
    omega
  · intro h a h1 h2
    omega

theorem firstInFont_span_some (base count : Nat) (hc : 0 < count) (h : base < Config.fontSize) :
    firstInFont (addressSpan base count) = some base := by
  cases count with
  | zero => omega
  | succ n => simp [firstInFont, addressSpan, List.range'_succ, h]

/-- `StoreCheck` passes exactly the empty span and the spans inside 80..4095 (R68). -/
theorem storeCheck_none (base count : Nat) :
    storeCheck (addressSpan base count) = none ↔
      count = 0 ∨ (Config.fontSize ≤ base ∧ base + count ≤ Config.memSize) := by
  unfold storeCheck
  split
  · rename_i a ha
    have : ¬(count = 0 ∨ base + count ≤ Config.memSize) := fun h => by
      rw [(firstOutOfRange_span_none base count).mpr h] at ha
      simp at ha
    simp only [reduceCtorEq, false_iff]
    omega
  · rename_i ha
    have h1 := (firstOutOfRange_span_none base count).mp ha
    rw [Option.map_eq_none_iff, firstInFont_span_none]
    omega

/-- `StoreCheck` on a span that leaves `mem` (R68). -/
theorem storeCheck_outOfRange (base count : Nat) (hc : 0 < count) (h : Config.memSize < base + count) :
    storeCheck (addressSpan base count) = some (.addressOutOfRange, max base Config.memSize) := by
  simp [storeCheck, firstOutOfRange_span_some base count hc h]

/-- `StoreCheck` on a span that starts in the font (R68). -/
theorem storeCheck_font (base count : Nat) (hc : 0 < count) (h : base < Config.fontSize)
    (hr : base + count ≤ Config.memSize) :
    storeCheck (addressSpan base count) = some (.fontWriteProtect, base) := by
  simp [storeCheck, (firstOutOfRange_span_none base count).mpr (.inr hr), firstInFont_span_some base count hc h]

/-- `StoreCheck` raises one of its two faults or passes (R68). -/
theorem storeCheck_kind (addrs : List Nat) (k : FaultKind) (a : Nat) (h : storeCheck addrs = some (k, a)) :
    k = .addressOutOfRange ∨ k = .fontWriteProtect := by
  unfold storeCheck at h
  split at h
  · simp_all
  · rw [Option.map_eq_some_iff] at h
    obtain ⟨_, _, h⟩ := h
    simp_all

/-- A block read inside `mem` gives the bytes (R66). -/
theorem Memory.readBlock_ok (m : Memory) (base count : Nat) (h : count = 0 ∨ base + count ≤ Config.memSize) :
    m.readBlock (addressSpan base count) = .ok ((addressSpan base count).map fun a => m.read a) := by
  simp [Memory.readBlock, (firstOutOfRange_span_none base count).mpr h]

/-- A block read that leaves `mem` gives the first address above 0x0FFF (R66). -/
theorem Memory.readBlock_error (m : Memory) (base count : Nat) (hc : 0 < count) (h : Config.memSize < base + count) :
    m.readBlock (addressSpan base count) = .error (max base Config.memSize) := by
  simp [Memory.readBlock, firstOutOfRange_span_some base count hc h]

/-- The memory after reset is in the canonical form. -/
theorem State.reset_mem_wf : State.reset.mem.wf := ⟨List.Pairwise.nil, fun _ h => by cases h⟩

end Sys2Proof.Machine
end

