-- ==== Sys2Proof/Laws/Ops.lean ====
section
/-! SUPPORT. For each shared operation, once, everything it can do. -/

namespace Sys2Proof.Machine

/-! ### Call stack -/

theorem State.push_of_lt (s : State) (w : Word) (h : s.sp.val < 16) :
    s.push w = some { s with stack := s.stack.set s.sp.val w, sp := ⟨s.sp.val + 1, by omega⟩ } := by
  simp [State.push, h]

theorem State.push_of_full (s : State) (w : Word) (h : s.sp.val = 16) : s.push w = none := by
  simp [State.push, h]

theorem State.pop_of_pos (s : State) (h : 0 < s.sp.val) :
    s.pop = some (s.stack[s.sp.val - 1], { s with sp := ⟨s.sp.val - 1, by omega⟩ }) := by
  simp [State.pop, h]

theorem State.pop_of_empty (s : State) (h : s.sp.val = 0) : s.pop = none := by
  simp [State.pop, h]

/-- A push fails, or writes one slot and counts up. -/
theorem State.push_cases (s : State) (w : Word) :
    (s.sp.val = 16 ∧ s.push w = none) ∨
    ∃ h : s.sp.val < 16,
      s.push w = some { s with stack := s.stack.set s.sp.val w, sp := ⟨s.sp.val + 1, by omega⟩ } := by
  by_cases h : s.sp.val < 16
  · exact .inr ⟨h, s.push_of_lt w h⟩
  · exact .inl ⟨by omega, s.push_of_full w (by omega)⟩

/-- A pop fails, or reads one slot and counts down. -/
theorem State.pop_cases (s : State) :
    (s.sp.val = 0 ∧ s.pop = none) ∨
    ∃ h : 0 < s.sp.val, s.pop = some (s.stack[s.sp.val - 1], { s with sp := ⟨s.sp.val - 1, by omega⟩ }) := by
  by_cases h : 0 < s.sp.val
  · exact .inr ⟨h, s.pop_of_pos h⟩
  · exact .inl ⟨by omega, s.pop_of_empty (by omega)⟩

/-- A stack fault is taken under `halt` and stops the machine under `continue` (R247). -/
theorem State.raiseStackFault_cases (s : State) (k : FaultKind) :
    (s.stackPolicy = .halt ∧ s.raiseStackFault k = .next (s.raise k none)) ∨
    (s.stackPolicy = .goOn ∧ s.raiseStackFault k = .fault (.stackFaultContinued k)) := by
  unfold State.raiseStackFault
  cases h : s.stackPolicy <;> simp

/-! ### Memory accesses -/

/-- A store stores all its bytes inside 80..4095, or raises one of the two store faults and stores none (R68). -/
theorem State.storeBytes_cases (s : State) (bytes : List Byte) :
    ((bytes.length = 0 ∨ (Config.fontSize ≤ s.index.toNat ∧ s.index.toNat + bytes.length ≤ Config.memSize)) ∧
      s.storeBytes bytes = s.setMem (s.mem.writeBlock s.index.toNat bytes)) ∨
    ∃ k a, (k = .addressOutOfRange ∨ k = .fontWriteProtect) ∧
      storeCheck (addressSpan s.index.toNat bytes.length) = some (k, a) ∧ s.storeBytes bytes = s.raise k (some a) := by
  unfold State.storeBytes
  split
  · rename_i k a h
    exact .inr ⟨k, a, storeCheck_kind _ k a h, h, rfl⟩
  · rename_i h
    exact .inl ⟨(storeCheck_none _ _).mp h, rfl⟩

/-- A load gives the bytes in order, or the first address above 0x0FFF (R66). -/
theorem State.loadBytes_cases (s : State) (count : Nat) :
    ((count = 0 ∨ s.index.toNat + count ≤ Config.memSize) ∧
      s.loadBytes count = .ok ((addressSpan s.index.toNat count).map fun a => s.mem.read a)) ∨
    ((0 < count ∧ Config.memSize < s.index.toNat + count) ∧
      s.loadBytes count = .error (max s.index.toNat Config.memSize)) := by
  by_cases h : count = 0 ∨ s.index.toNat + count ≤ Config.memSize
  · exact .inl ⟨h, Memory.readBlock_ok _ _ _ h⟩
  · exact .inr ⟨by omega, Memory.readBlock_error _ _ _ (by omega) (by omega)⟩

/-- The bytes of a load are as many as asked for. -/
theorem State.loadBytes_length (s : State) (count : Nat) (bytes : List Byte) (h : s.loadBytes count = .ok bytes) :
    bytes.length = count := by
  rcases s.loadBytes_cases count with ⟨-, h'⟩ | ⟨-, h'⟩
  · rw [h'] at h
    cases h
    simp
  · rw [h'] at h
    cases h

/-! ### The cycle -/

/-- A fetch gives the two bytes at `pc`, or nothing above 0x0FFE (R64, R67). -/
theorem State.fetch_cases (s : State) :
    (0x0FFE < s.pc.toNat ∧ s.fetch = none) ∨
    (s.pc.toNat ≤ 0x0FFE ∧ s.fetch = some (wordOfBytes (s.mem.read s.pc.toNat) (s.mem.read (s.pc.toNat + 1)))) := by
  by_cases h : 0x0FFE < s.pc.toNat
  · exact .inl ⟨h, by simp [State.fetch, h]⟩
  · exact .inr ⟨by omega, by simp [State.fetch, h]⟩

/-- The address of the instruction from the advanced `pc`. -/
theorem pc_add_two_sub_two (w : Word) : w + 2 - 2 = w := by bv_omega

/-- A finished cycle came from a next state of the instruction. -/
theorem finishCycle_next {o : Host.Outcome State Fault Refusal} {t : State} (h : finishCycle o = .next t) :
    ∃ u, o = .next u ∧ t = u.endCycle := by
  cases o <;> simp_all [finishCycle]

/-- What a cycle can do: the halted identity, a fetch fault, an unknown word, or the decoded instruction (R120). -/
theorem step_cases {s t : State} (h : step s = .next t) :
    (s.halted = true ∧ t = s.haltedCycle) ∨
    (s.halted = false ∧ s.fetch = none ∧ t = s.fetchFaultCycle) ∨
    (∃ w, s.halted = false ∧ s.fetch = some w ∧ decodeWord w = none ∧ t = s.unknownCycle w) ∨
    ∃ w i u, s.halted = false ∧ s.fetch = some w ∧ decodeWord w = some i ∧ exec i (s.afterFetch w) = .next u ∧
      t = u.endCycle := by
  unfold step at h
  cases hh : s.halted with
  | true => simp_all
  | false =>
    simp only [hh, Bool.false_eq_true, if_false] at h
    split at h
    · simp_all
    · rename_i w hw
      split at h
      · simp_all
      · rename_i i hi
        obtain ⟨u, hu, rfl⟩ := finishCycle_next h
        exact .inr (.inr (.inr ⟨w, i, u, rfl, hw, hi, hu, rfl⟩))

end Sys2Proof.Machine
end

