-- ==== Sys2Proof/Laws/PerInstr.lean ====
section
/-! SUPPORT. The per-instruction family EncodesAsMapRow: the word of every instruction has the fixed bits of its row of the
opcode map, and that row is in the map (R92, R95). -/

namespace Sys2Proof.Laws.EncodesAsMapRow

/-- The word of the instruction matches the row of its mnemonic (R95). -/
def Statement (i : Instr) : Prop :=
  encode i &&& i.rowBits.2 = i.rowBits.1 ∧ (⟨i.mnemonic, i.rowBits.1, i.rowBits.2⟩ : OpcodeRow) ∈ opcodeMap

/-! The fixed bits of a word of each format (R92). -/

theorem encNNN_fixed (a : BitVec 4) (nnn : BitVec 12) (v : Nat) (h : a.toNat * 4096 = v) :
    (encNNN a nnn &&& 0xF000#16).toNat = v := by
  have h1 := and_F000_toNat (encNNN a nnn)
  have h2 := encNNN_toNat a nnn
  omega

theorem encXKK_fixed (a : BitVec 4) (x : Reg) (kk : Byte) (v : Nat) (h : a.toNat * 4096 = v) :
    (encXKK a x kk &&& 0xF000#16).toNat = v := by
  have h1 := and_F000_toNat (encXKK a x kk)
  have h2 := encXKK_toNat a x kk
  omega

theorem encXYN_fixed (a : BitVec 4) (x y : Reg) (n : BitVec 4) (v : Nat) (h : a.toNat * 4096 = v) :
    (encXYN a x y n &&& 0xF000#16).toNat = v := by
  have h1 := and_F000_toNat (encXYN a x y n)
  have h2 := encXYN_toNat a x y n
  omega

theorem encXY_fixed (a : BitVec 4) (x y : Reg) (n : BitVec 4) (v : Nat) (h : a.toNat * 4096 + n.toNat = v) :
    (encXYN a x y n &&& 0xF00F#16).toNat = v := by
  have h1 := and_F00F_toNat (encXYN a x y n)
  have h2 := encXYN_toNat a x y n
  omega

theorem encX_fixed (a : BitVec 4) (x : Reg) (kk : Byte) (v : Nat) (h : a.toNat * 4096 + kk.toNat = v) :
    (encXKK a x kk &&& 0xF0FF#16).toNat = v := by
  have h1 := and_F0FF_toNat (encXKK a x kk)
  have h2 := encXKK_toNat a x kk
  omega

/-! One lemma per constructor. -/

theorem cls : Statement .cls :=
  ⟨BitVec.eq_of_toNat_eq (rfl), by simp [opcodeMap, Instr.mnemonic, Instr.rowBits]⟩

theorem ret : Statement .ret :=
  ⟨BitVec.eq_of_toNat_eq (rfl), by simp [opcodeMap, Instr.mnemonic, Instr.rowBits]⟩

theorem jump (nnn : BitVec 12) : Statement (.jump nnn) :=
  ⟨BitVec.eq_of_toNat_eq (encNNN_fixed _ nnn _ rfl), by simp [opcodeMap, Instr.mnemonic, Instr.rowBits]⟩

theorem call (nnn : BitVec 12) : Statement (.call nnn) :=
  ⟨BitVec.eq_of_toNat_eq (encNNN_fixed _ nnn _ rfl), by simp [opcodeMap, Instr.mnemonic, Instr.rowBits]⟩

theorem seImm (x : Reg) (kk : Byte) : Statement (.seImm x kk) :=
  ⟨BitVec.eq_of_toNat_eq (encXKK_fixed _ x kk _ rfl), by simp [opcodeMap, Instr.mnemonic, Instr.rowBits]⟩

theorem sneImm (x : Reg) (kk : Byte) : Statement (.sneImm x kk) :=
  ⟨BitVec.eq_of_toNat_eq (encXKK_fixed _ x kk _ rfl), by simp [opcodeMap, Instr.mnemonic, Instr.rowBits]⟩

theorem seReg (x y : Reg) : Statement (.seReg x y) :=
  ⟨BitVec.eq_of_toNat_eq (encXY_fixed _ x y _ _ rfl), by simp [opcodeMap, Instr.mnemonic, Instr.rowBits]⟩

theorem ldImm (x : Reg) (kk : Byte) : Statement (.ldImm x kk) :=
  ⟨BitVec.eq_of_toNat_eq (encXKK_fixed _ x kk _ rfl), by simp [opcodeMap, Instr.mnemonic, Instr.rowBits]⟩

theorem addImm (x : Reg) (kk : Byte) : Statement (.addImm x kk) :=
  ⟨BitVec.eq_of_toNat_eq (encXKK_fixed _ x kk _ rfl), by simp [opcodeMap, Instr.mnemonic, Instr.rowBits]⟩

theorem ldReg (x y : Reg) : Statement (.ldReg x y) :=
  ⟨BitVec.eq_of_toNat_eq (encXY_fixed _ x y _ _ rfl), by simp [opcodeMap, Instr.mnemonic, Instr.rowBits]⟩

theorem orReg (x y : Reg) : Statement (.orReg x y) :=
  ⟨BitVec.eq_of_toNat_eq (encXY_fixed _ x y _ _ rfl), by simp [opcodeMap, Instr.mnemonic, Instr.rowBits]⟩

theorem andReg (x y : Reg) : Statement (.andReg x y) :=
  ⟨BitVec.eq_of_toNat_eq (encXY_fixed _ x y _ _ rfl), by simp [opcodeMap, Instr.mnemonic, Instr.rowBits]⟩

theorem xorReg (x y : Reg) : Statement (.xorReg x y) :=
  ⟨BitVec.eq_of_toNat_eq (encXY_fixed _ x y _ _ rfl), by simp [opcodeMap, Instr.mnemonic, Instr.rowBits]⟩

theorem addReg (x y : Reg) : Statement (.addReg x y) :=
  ⟨BitVec.eq_of_toNat_eq (encXY_fixed _ x y _ _ rfl), by simp [opcodeMap, Instr.mnemonic, Instr.rowBits]⟩

theorem subReg (x y : Reg) : Statement (.subReg x y) :=
  ⟨BitVec.eq_of_toNat_eq (encXY_fixed _ x y _ _ rfl), by simp [opcodeMap, Instr.mnemonic, Instr.rowBits]⟩

theorem shr (x y : Reg) : Statement (.shr x y) :=
  ⟨BitVec.eq_of_toNat_eq (encXY_fixed _ x y _ _ rfl), by simp [opcodeMap, Instr.mnemonic, Instr.rowBits]⟩

theorem subnReg (x y : Reg) : Statement (.subnReg x y) :=
  ⟨BitVec.eq_of_toNat_eq (encXY_fixed _ x y _ _ rfl), by simp [opcodeMap, Instr.mnemonic, Instr.rowBits]⟩

theorem shl (x y : Reg) : Statement (.shl x y) :=
  ⟨BitVec.eq_of_toNat_eq (encXY_fixed _ x y _ _ rfl), by simp [opcodeMap, Instr.mnemonic, Instr.rowBits]⟩

theorem sneReg (x y : Reg) : Statement (.sneReg x y) :=
  ⟨BitVec.eq_of_toNat_eq (encXY_fixed _ x y _ _ rfl), by simp [opcodeMap, Instr.mnemonic, Instr.rowBits]⟩

theorem ldI (nnn : BitVec 12) : Statement (.ldI nnn) :=
  ⟨BitVec.eq_of_toNat_eq (encNNN_fixed _ nnn _ rfl), by simp [opcodeMap, Instr.mnemonic, Instr.rowBits]⟩

theorem jumpV0 (nnn : BitVec 12) : Statement (.jumpV0 nnn) :=
  ⟨BitVec.eq_of_toNat_eq (encNNN_fixed _ nnn _ rfl), by simp [opcodeMap, Instr.mnemonic, Instr.rowBits]⟩

theorem rnd (x : Reg) (kk : Byte) : Statement (.rnd x kk) :=
  ⟨BitVec.eq_of_toNat_eq (encXKK_fixed _ x kk _ rfl), by simp [opcodeMap, Instr.mnemonic, Instr.rowBits]⟩

theorem draw (x y : Reg) (n : BitVec 4) : Statement (.draw x y n) :=
  ⟨BitVec.eq_of_toNat_eq (encXYN_fixed _ x y n _ rfl), by simp [opcodeMap, Instr.mnemonic, Instr.rowBits]⟩

theorem skp (x : Reg) : Statement (.skp x) :=
  ⟨BitVec.eq_of_toNat_eq (encX_fixed _ x _ _ rfl), by simp [opcodeMap, Instr.mnemonic, Instr.rowBits]⟩

theorem sknp (x : Reg) : Statement (.sknp x) :=
  ⟨BitVec.eq_of_toNat_eq (encX_fixed _ x _ _ rfl), by simp [opcodeMap, Instr.mnemonic, Instr.rowBits]⟩

theorem ldVxDT (x : Reg) : Statement (.ldVxDT x) :=
  ⟨BitVec.eq_of_toNat_eq (encX_fixed _ x _ _ rfl), by simp [opcodeMap, Instr.mnemonic, Instr.rowBits]⟩

theorem ldVxK (x : Reg) : Statement (.ldVxK x) :=
  ⟨BitVec.eq_of_toNat_eq (encX_fixed _ x _ _ rfl), by simp [opcodeMap, Instr.mnemonic, Instr.rowBits]⟩

theorem ldDT (x : Reg) : Statement (.ldDT x) :=
  ⟨BitVec.eq_of_toNat_eq (encX_fixed _ x _ _ rfl), by simp [opcodeMap, Instr.mnemonic, Instr.rowBits]⟩

theorem ldST (x : Reg) : Statement (.ldST x) :=
  ⟨BitVec.eq_of_toNat_eq (encX_fixed _ x _ _ rfl), by simp [opcodeMap, Instr.mnemonic, Instr.rowBits]⟩

theorem addI (x : Reg) : Statement (.addI x) :=
  ⟨BitVec.eq_of_toNat_eq (encX_fixed _ x _ _ rfl), by simp [opcodeMap, Instr.mnemonic, Instr.rowBits]⟩

theorem ldF (x : Reg) : Statement (.ldF x) :=
  ⟨BitVec.eq_of_toNat_eq (encX_fixed _ x _ _ rfl), by simp [opcodeMap, Instr.mnemonic, Instr.rowBits]⟩

theorem ldB (x : Reg) : Statement (.ldB x) :=
  ⟨BitVec.eq_of_toNat_eq (encX_fixed _ x _ _ rfl), by simp [opcodeMap, Instr.mnemonic, Instr.rowBits]⟩

theorem storeRegs (x : Reg) : Statement (.storeRegs x) :=
  ⟨BitVec.eq_of_toNat_eq (encX_fixed _ x _ _ rfl), by simp [opcodeMap, Instr.mnemonic, Instr.rowBits]⟩

theorem loadRegs (x : Reg) : Statement (.loadRegs x) :=
  ⟨BitVec.eq_of_toNat_eq (encX_fixed _ x _ _ rfl), by simp [opcodeMap, Instr.mnemonic, Instr.rowBits]⟩

end Sys2Proof.Laws.EncodesAsMapRow
end

