-- ==== Sys2Proof/Laws/Run.lean ====
section
/-! SUPPORT. Runs of the core, one cycle at a time. -/

namespace Sys2Proof.Machine
/-- One more step of a run (any machine behind the host's interface). -/
theorem run_succ (M : Host.Core) (n : Nat) (s : M.State) :
    M.run (n + 1) s =
      match M.step s with
      | .next u => M.run n u
      | .fault r => .fault r
      | .refused r => .refused r := rfl

theorem run_succ_of_next (M : Host.Core) (n : Nat) (s u : M.State) (h : M.step s = .next u) :
    M.run (n + 1) s = M.run n u := by
  rw [run_succ, h]

theorem run_succ_next (M : Host.Core) (n : Nat) (s t : M.State) (h : M.run (n + 1) s = .next t) :
    ∃ u, M.step s = .next u ∧ M.run n u = .next t := by
  rw [run_succ] at h
  cases hs : M.step s with
  | next u => rw [hs] at h; exact ⟨u, rfl, h⟩
  | fault r => rw [hs] at h; cases h
  | refused r => rw [hs] at h; cases h
/-- A run of `n + 1` cycles whose first gives `u` is the run of `n` cycles from `u`. -/
theorem core_run_succ_of_next {s u : State} (n : Nat) (h : step s = .next u) : core.run (n + 1) s = core.run n u :=
  run_succ_of_next core n s u h
/-- A run of `n + 1` cycles that answers a next state had a first cycle that did. -/
theorem core_run_succ_next {s t : State} {n : Nat} (h : core.run (n + 1) s = .next t) :
    ∃ u, step s = .next u ∧ core.run n u = .next t := run_succ_next core n s t h

theorem core_run_zero {s t : State} (h : core.run 0 s = .next t) : s = t := Host.Outcome.next.inj h

end Sys2Proof.Machine
end

