-- ==== Sys2Proof/Tests/Slice0.lean ====
section
/-! SUPPORT. Tests of single steps and of the decoder, and for each statement with hypotheses a state and operands that
meet them. Expected results are those of spec/95_test_vectors.md (its ids stand in the comments), or of the rule named
where it has none. -/

open Sys2Proof Sys2Proof.Machine

/-! ### Operand checks refuse what lies outside the field (R91, R111) -/

theorem test_reg_operand :
    Operand.regOk 15 = true ∧ Operand.regOk 16 = false ∧ Operand.reg? 15 = some 15 ∧ Operand.reg? 16 = none := by decide

theorem test_addr_operand :
    Operand.addrOk 0xFFF = true ∧ Operand.addrOk 0x1000 = false ∧ Operand.addr? 0xFFF = some 0xFFF ∧
      Operand.addr? 0x1000 = none := by decide

theorem test_byte_operand :
    Operand.byteOk 0xFF = true ∧ Operand.byteOk 0x100 = false ∧ Operand.byte? 0xFF = some 0xFF ∧
      Operand.byte? 0x100 = none := by decide

theorem test_nibble_operand :
    Operand.nibbleOk 0xF = true ∧ Operand.nibbleOk 0x10 = false ∧ Operand.nibble? 0xF = some 0xF ∧
      Operand.nibble? 0x10 = none := by decide

/-! ### Decoding: one word for each instruction, written out from R92 and R95 -/

theorem test_decode_control :
    decodeWord 0b0000000011100000 = some .cls ∧ decodeWord 0b0000000011101110 = some .ret ∧
    decodeWord 0b0001101010111100 = some (.jump 0xABC) ∧ decodeWord 0b0010111111111111 = some (.call 0xFFF) ∧
    decodeWord 0b0011101001111111 = some (.seImm 0xA 0x7F) ∧ decodeWord 0b0100001111000001 = some (.sneImm 0x3 0xC1) ∧
    decodeWord 0b0101101010110000 = some (.seReg 0xA 0xB) ∧ decodeWord 0b1001110100100000 = some (.sneReg 0xD 0x2) ∧
    decodeWord 0b1011011110000001 = some (.jumpV0 0x781) := by decide

theorem test_decode_registers :
    decodeWord 0b0110001100000001 = some (.ldImm 0x3 0x01) ∧ decodeWord 0b0111111010000000 = some (.addImm 0xE 0x80) ∧
    decodeWord 0b1000000111100000 = some (.ldReg 0x1 0xE) ∧ decodeWord 0b1000001011010001 = some (.orReg 0x2 0xD) ∧
    decodeWord 0b1000010010110010 = some (.andReg 0x4 0xB) ∧ decodeWord 0b1000100001110011 = some (.xorReg 0x8 0x7) ∧
    decodeWord 0b1000000111100100 = some (.addReg 0x1 0xE) ∧ decodeWord 0b1000001011010101 = some (.subReg 0x2 0xD) ∧
    decodeWord 0b1000101010110110 = some (.shr 0xA 0xB) ∧ decodeWord 0b1000010010110111 = some (.subnReg 0x4 0xB) ∧
    decodeWord 0b1000101010111110 = some (.shl 0xA 0xB) ∧ decodeWord 0b1100000011111111 = some (.rnd 0x0 0xFF) := by decide

theorem test_decode_memory_display :
    decodeWord 0b1010001011110000 = some (.ldI 0x2F0) ∧ decodeWord 0b1101000100101111 = some (.draw 0x1 0x2 0xF) ∧
    decodeWord 0b1111000100011110 = some (.addI 0x1) ∧ decodeWord 0b1111010100101001 = some (.ldF 0x5) ∧
    decodeWord 0b1111001000110011 = some (.ldB 0x2) ∧ decodeWord 0b1111001101010101 = some (.storeRegs 0x3) ∧
    decodeWord 0b1111111001100101 = some (.loadRegs 0xE) := by decide

theorem test_decode_keys_timers :
    decodeWord 0b1110010110011110 = some (.skp 0x5) ∧ decodeWord 0b1110101010100001 = some (.sknp 0xA) ∧
    decodeWord 0b1111001000000111 = some (.ldVxDT 0x2) ∧ decodeWord 0b1111110000001010 = some (.ldVxK 0xC) ∧
    decodeWord 0b1111000100010101 = some (.ldDT 0x1) ∧ decodeWord 0b1111100000011000 = some (.ldST 0x8) := by decide

/-- T-DEC-20. -/
theorem test_decode_unknown :
    [0x0000, 0x00E1, 0x00EF, 0x01E0, 0x0123, 0x0FFF, 0x5121, 0x512F, 0x9AB3, 0x8008, 0x8129, 0x812D, 0x812F, 0xE100,
      0xE19F, 0xE1A0, 0xF000, 0xF10B, 0xF128, 0xF156, 0xF166, 0xF1FF, 0xFFFF].all
      (fun w => decodeWord (BitVec.ofNat 16 w) == none) = true := by decide

/-- R63, R90: the high byte comes first; one byte is no instruction. -/
theorem test_decode_bytes :
    encodeBytes (.jump 0x234) = [0x12, 0x34] ∧ decodeTableWord 16 0x1234 = some (.jump 0x234) ∧
    (match decode [0x12] with | .error .truncated => true | _ => false) = true ∧
    (match decode [0x81, 0x29, 0x00] with | .error (.unknownOpcode 0x8129) => true | _ => false) = true := by decide

/-! ### One cycle of a small state -/

/-- The start state of the vectors: reset, the word at 0x200, and the inputs of one cycle. -/
def start (w : Word) (keys : BitVec 16 := 0) (rnd : Byte := 0) : State := (State.reset.placeWord w).present [⟨keys, rnd⟩]

/-- Bytes put in memory. -/
def putBytes (s : State) (a : Nat) (bytes : List Byte) : State := s.setMem (s.mem.writeBlock a bytes)

/-- Cells of the framebuffer lit. -/
def lightCells (s : State) (cells : List FbCell) : State := s.setFb (toggleAll s.fb cells false).1

/-- One cycle answers a next state, and it passes the check. -/
def cycleEnds (s : State) (check : State → Bool) : Bool :=
  match step s with
  | .next t => check t
  | .fault _ => false
  | .refused _ => false

/-- The end of a cycle with a fatal fault of the instruction at 0x200. -/
def faulted (k : FaultKind) (detail : Option Nat) (t : State) : Bool :=
  t.halted && t.faultCode == some k && t.faultPc == 0x200 && t.pc == 0x202 &&
    t.report == some ⟨k, 0x200, t.ir, detail⟩

/-- The bytes from an address up. -/
def bytesAt (t : State) (a n : Nat) : List Byte := (addressSpan a n).map fun k => t.mem.read k

/-- T-CYC-1, T-CYC-12. -/
theorem test_unknown_opcode :
    cycleEnds ((start 0x0000).setDT 5) (fun t => t.faultCode == some .unknownOpcode && t.faultPc == 0x200 &&
      t.pc == 0x202 && t.dt == 4 && !t.halted && t.report == some ⟨.unknownOpcode, 0x200, 0, none⟩) = true ∧
    cycleEnds (((start 0x0000).setDT 5).setPolicies .halt .halt) (fun t => faulted .unknownOpcode none t && t.dt == 5) = true := by
  decide

/-- T-CYC-2, T-CYC-6. -/
theorem test_fetch_fault :
    cycleEnds (((start 0x0000).setPc 0xFFF).setDT 5) (fun t => t.faultCode == some .addressOutOfRange && t.faultPc == 0xFFF &&
      t.halted && t.pc == 0xFFF && t.dt == 5 && t.report == some ⟨.addressOutOfRange, 0xFFF, 0, some 0x1000⟩) = true ∧
    cycleEnds ((start 0x0000).setPc 0xFFFF) (fun t => t.faultPc == 0xFFFF && t.pc == 0xFFFF && t.halted) = true := by decide

/-- T-CYC-3, T-CYC-5: the last word of memory, and an odd address. -/
theorem test_fetch_edges :
    cycleEnds ((putBytes (start 0) 0xFFE [0x6A, 0x55]).setPc 0xFFE) (fun t => t.reg 0xA == 0x55 && t.pc == 0x1000) = true ∧
    cycleEnds ((putBytes (start 0) 0x201 [0x6A, 0x07]).setPc 0x201)
      (fun t => t.reg 0xA == 0x07 && t.pc == 0x203 && t.ir == 0x6A07) = true := by decide

/-- T-CYC-4. -/
theorem test_halted_cycle :
    cycleEnds { ((start 0x6301).setDT 5).setPc 0x1000 with halted := true }
      (fun t => t.halted && t.pc == 0x1000 && t.dt == 5 && t.ir == 0 && t.report == none) = true := by decide

/-- T-CYC-10, T-CYC-11. -/
theorem test_tick :
    cycleEnds (((start 0x6000).setDT 1).setST 2) (fun t => t.dt == 0 && t.st == 1) = true ∧
    cycleEnds (start 0x6000) (fun t => t.dt == 0 && t.st == 0) = true := by decide

/-- T-LD-1, T-LD-2, T-LD-5. -/
theorem test_load :
    (match State.reset.load [0x63, 0x01, 0xF3] with
      | .loaded t => bytesAt t 0x200 4 == [0x63, 0x01, 0xF3, 0] && t.pc == 0x200
      | _ => false) = true ∧
    (match State.reset.load [] with | .loaded t => t.mem == [] | _ => false) = true ∧
    cycleEnds (start 0x6000) (fun t => t.load [] == .refused .loadOutsideWindow) = true := by decide

/-- R284: the policies are fixed before the first cycle, also after a load, and not after it. -/
theorem test_configure :
    (match State.reset.load [0x63] with
      | .loaded t => (match t.configure .halt .goOn with
        | .configured u => u.unknownPolicy == .halt && u.stackPolicy == .goOn
        | .refused _ => false)
      | _ => false) = true ∧
    cycleEnds (start 0x6000) (fun t => t.configure .halt .halt == .refused .configureAfterFirstCycle &&
      t.hostReset.configure .halt .halt == .configured (t.hostReset.setPolicies .halt .halt)) = true := by decide

/-- R71: the last glyph, and the byte after it; S7 for the glyph "5". -/
theorem test_font : bytesAt State.reset 75 6 = [0xF0, 0x80, 0xF0, 0x80, 0x80, 0x00] ∧
    bytesAt State.reset 25 5 = [0xF0, 0x80, 0xF0, 0x10, 0xF0] := by decide

/-- T-DSP-14. -/
theorem test_cls : cycleEnds ((lightCells (start 0x00E0) [(0, 3), (31, 63)]).setReg vF 1)
    (fun t => !t.fb.cell (0, 3) && !t.fb.cell (31, 63) && t.reg vF == 1) = true := by decide

/-- T-CF-7, T-CF-7b. -/
theorem test_ret :
    cycleEnds { start 0x00EE with sp := 1, stack := State.reset.stack.set 0 0x0202 }
      (fun t => t.sp == 0 && t.pc == 0x202 && t.stack[0] == 0x0202) = true ∧
    cycleEnds (start 0x00EE) (faulted .stackUnderflow none) = true := by decide

/-- T-CF-1, T-CF-3. -/
theorem test_jump : cycleEnds (start 0x1234) (fun t => t.pc == 0x234) = true ∧
    cycleEnds (start 0x1FFF) (fun t => t.pc == 0xFFF) = true := by decide

/-- T-CF-5, T-CF-6. -/
theorem test_call :
    cycleEnds { start 0x2300 with sp := 15 } (fun t => t.sp == 16 && t.pc == 0x300 && t.stack[15] == 0x202) = true ∧
    cycleEnds { start 0x2300 with sp := 16 } (fun t => faulted .stackOverflow none t && t.sp == 16) = true := by decide

/-- U2: a stack fault under `continue` stops by name. -/
theorem test_continued_stack_fault :
    (match step ((start 0x00EE).setPolicies .goOn .goOn) with
      | .fault (.stackFaultContinued .stackUnderflow) => true
      | _ => false) = true := by decide

/-- T-CF-8, T-CF-10. -/
theorem test_jumpV0 : cycleEnds ((start 0xBFF0).setReg 0 0x20) (fun t => t.pc == 0x010) = true ∧
    cycleEnds ((start 0xBFFF).setReg 0 0xFF) (fun t => t.pc == 0x0FE) = true := by decide

/-- T-CF-11, T-CF-12, T-CF-21. -/
theorem test_seImm : cycleEnds ((start 0x3A05).setReg 0xA 0x05) (fun t => t.pc == 0x204) = true ∧
    cycleEnds ((start 0x3A05).setReg 0xA 0x06) (fun t => t.pc == 0x202) = true ∧
    cycleEnds ((putBytes (start 0) 0xFFE [0x30, 0x00]).setPc 0xFFE) (fun t => t.pc == 0x1002) = true := by decide

/-- T-CF-13, T-CF-14. -/
theorem test_sneImm : cycleEnds ((start 0x4A05).setReg 0xA 0x05) (fun t => t.pc == 0x202) = true ∧
    cycleEnds ((start 0x4A05).setReg 0xA 0x06) (fun t => t.pc == 0x204) = true := by decide

/-- T-CF-15, T-CF-16. -/
theorem test_seReg : cycleEnds (((start 0x5120).setReg 1 7).setReg 2 7) (fun t => t.pc == 0x204) = true ∧
    cycleEnds (((start 0x5120).setReg 1 7).setReg 2 8) (fun t => t.pc == 0x202) = true := by decide

/-- T-CF-18, T-CF-19. -/
theorem test_sneReg : cycleEnds (((start 0x9120).setReg 1 7).setReg 2 8) (fun t => t.pc == 0x204) = true ∧
    cycleEnds (((start 0x9120).setReg 1 7).setReg 2 7) (fun t => t.pc == 0x202) = true := by decide

/-- T-ALU-2. -/
theorem test_ldImm : cycleEnds (start 0x6FAB) (fun t => t.reg vF == 0xAB && t.reg 0 == 0) = true := by decide

/-- T-ALU-3, T-ALU-5. -/
theorem test_addImm : cycleEnds (((start 0x7105).setReg 1 0xFE).setReg vF 9) (fun t => t.reg 1 == 3 && t.reg vF == 9) = true ∧
    cycleEnds ((start 0x7F01).setReg vF 0xFF) (fun t => t.reg vF == 0) = true := by decide

/-- T-ALU-6. -/
theorem test_ldReg : cycleEnds ((start 0x8120).setReg 2 0x2A) (fun t => t.reg 1 == 0x2A && t.reg 2 == 0x2A) = true := by decide

/-- T-ALU-7. -/
theorem test_orReg : cycleEnds ((((start 0x8121).setReg 1 0xF0).setReg 2 0x0F).setReg vF 7)
    (fun t => t.reg 1 == 0xFF && t.reg vF == 7) = true := by decide

/-- T-ALU-8. -/
theorem test_andReg : cycleEnds (((start 0x8122).setReg 1 0xF3).setReg 2 0x3C) (fun t => t.reg 1 == 0x30) = true := by decide

/-- T-ALU-9, T-ALU-10. -/
theorem test_xorReg : cycleEnds (((start 0x8123).setReg 1 0xFF).setReg 2 0x0F) (fun t => t.reg 1 == 0xF0) = true ∧
    cycleEnds ((start 0x8113).setReg 1 0x5A) (fun t => t.reg 1 == 0) = true := by decide

/-- T-ALU-11, T-ALU-12. -/
theorem test_addReg :
    cycleEnds (((start 0x8124).setReg 1 0xC8).setReg 2 0x64) (fun t => t.reg 1 == 0x2C && t.reg vF == 1) = true ∧
    cycleEnds (((start 0x8124).setReg 1 0x80).setReg 2 0x7F) (fun t => t.reg 1 == 0xFF && t.reg vF == 0) = true := by decide

/-- T-ALU-14, T-ALU-16: `VF` as a destination and as a source. -/
theorem test_addReg_VF : cycleEnds (((start 0x8F14).setReg vF 0xF0).setReg 1 0x20) (fun t => t.reg vF == 1) = true ∧
    cycleEnds (((start 0x81F4).setReg 1 5).setReg vF 0xFE) (fun t => t.reg 1 == 3 && t.reg vF == 1) = true := by decide

/-- T-ALU-17, T-ALU-18. -/
theorem test_subReg :
    cycleEnds (((start 0x8125).setReg 1 5).setReg 2 0xA) (fun t => t.reg 1 == 0xFB && t.reg vF == 0) = true ∧
    cycleEnds (((start 0x8125).setReg 1 7).setReg 2 7) (fun t => t.reg 1 == 0 && t.reg vF == 1) = true := by decide

/-- T-ALU-23, T-ALU-24, T-ALU-26. -/
theorem test_shr : cycleEnds ((start 0x8106).setReg 1 5) (fun t => t.reg 1 == 2 && t.reg vF == 1) = true ∧
    cycleEnds (((start 0x8126).setReg 1 4).setReg 2 0xFF) (fun t => t.reg 1 == 2 && t.reg vF == 0 && t.reg 2 == 0xFF) = true ∧
    cycleEnds ((start 0x8F06).setReg vF 3) (fun t => t.reg vF == 0) = true := by decide

/-- T-ALU-21, T-ALU-22. -/
theorem test_subnReg :
    cycleEnds (((start 0x8127).setReg 1 5).setReg 2 0xA) (fun t => t.reg 1 == 5 && t.reg vF == 1) = true ∧
    cycleEnds (((start 0x8127).setReg 1 0xA).setReg 2 5) (fun t => t.reg 1 == 0xFB && t.reg vF == 0) = true := by decide

/-- T-ALU-28, T-ALU-29, T-ALU-31. -/
theorem test_shl : cycleEnds ((start 0x810E).setReg 1 0x81) (fun t => t.reg 1 == 2 && t.reg vF == 1) = true ∧
    cycleEnds (((start 0x812E).setReg 1 0x40).setReg 2 0xFF) (fun t => t.reg 1 == 0x80 && t.reg vF == 0) = true ∧
    cycleEnds ((start 0x8F0E).setReg vF 0x81) (fun t => t.reg vF == 2) = true := by decide

/-- T-ALU-33, T-ALU-34. -/
theorem test_rnd : cycleEnds (start 0xC10F 0 0xA7) (fun t => t.reg 1 == 7) = true ∧
    cycleEnds (start 0xC100 0 0xFF) (fun t => t.reg 1 == 0) = true := by decide

/-- T-IDX-2. -/
theorem test_ldI : cycleEnds (start 0xAFFF) (fun t => t.index == 0xFFF) = true := by decide

/-- T-IDX-4, T-IDX-5. -/
theorem test_addI :
    cycleEnds ((((start 0xF11E).setIndex 0xFFF).setReg 1 1).setReg vF 5) (fun t => t.index == 0 && t.reg vF == 5) = true ∧
    cycleEnds (((start 0xF11E).setIndex 0xF80).setReg 1 0xFF) (fun t => t.index == 0x07F) = true := by decide

/-- T-IDX-8, T-IDX-9. -/
theorem test_ldF : cycleEnds ((start 0xF529).setReg 5 0x10) (fun t => t.index == 0x050) = true ∧
    cycleEnds ((start 0xF529).setReg 5 0xFF) (fun t => t.index == 0x4FB) = true := by decide

/-- T-IDX-10, T-IDX-17. -/
theorem test_ldB :
    cycleEnds (((start 0xF233).setReg 2 0x9C).setIndex 0x300)
      (fun t => bytesAt t 0x300 4 == [1, 5, 6, 0] && t.index == 0x300) = true ∧
    cycleEnds (((start 0xF233).setReg 2 0x7B).setIndex 0x050) (fun t => bytesAt t 0x50 3 == [1, 2, 3]) = true := by decide

/-- T-IDX-15, T-IDX-16. -/
theorem test_ldB_faults :
    cycleEnds (((start 0xF233).setReg 2 0x7B).setIndex 0xFFE)
      (fun t => faulted .addressOutOfRange (some 0x1000) t && bytesAt t 0xFFE 2 == [0, 0]) = true ∧
    cycleEnds (((start 0xF233).setReg 2 0x7B).setIndex 0x04E)
      (fun t => faulted .fontWriteProtect (some 0x4E) t && bytesAt t 0x4E 3 == [0x80, 0x80, 0x00]) = true := by decide

/-- The start state of T-IDX-18. -/
def storeStart : State :=
  (((((start 0xF355).setReg 0 0x11).setReg 1 0x22).setReg 2 0x33).setReg 3 0x44).setIndex 0x400

/-- T-IDX-18, T-IDX-19. -/
theorem test_storeRegs :
    cycleEnds storeStart (fun t => bytesAt t 0x400 4 == [0x11, 0x22, 0x33, 0] && t.index == 0x400) = true ∧
    cycleEnds ((start 0xF055).setReg 0 0x11) (fun t => bytesAt t 0 2 == [0xF0, 0x90] && !t.halted) = true := by decide

/-- T-IDX-21, T-IDX-23. -/
theorem test_storeRegs_faults :
    cycleEnds ((start 0xFF55).setIndex 0xFF2) (faulted .addressOutOfRange (some 0x1000)) = true ∧
    cycleEnds (((start 0xF255).setIndex 0x04F).setReg 1 0x77)
      (fun t => faulted .fontWriteProtect (some 0x4F) t && bytesAt t 0x50 1 == [0]) = true := by decide

/-- T-IDX-24, T-IDX-25. -/
theorem test_loadRegs :
    cycleEnds (((putBytes (start 0xF265) 0x400 [0xAA, 0xBB, 0xCC]).setIndex 0x400).setReg 2 0x77)
      (fun t => t.reg 0 == 0xAA && t.reg 1 == 0xBB && t.reg 2 == 0x77 && t.index == 0x400) = true ∧
    cycleEnds (((putBytes (start 0xF065) 0x400 [0xAA]).setIndex 0x400).setReg 0 0x11) (fun t => t.reg 0 == 0x11) = true := by
  decide

/-- T-IDX-26, T-IDX-27. -/
theorem test_loadRegs_edges :
    cycleEnds ((start 0xF265).setIndex 0xFFF) (fun t => faulted .addressOutOfRange (some 0x1000) t && t.reg 0 == 0) = true ∧
    cycleEnds ((putBytes (start 0xF165) 0xFFF [0x5A]).setIndex 0xFFF) (fun t => t.reg 0 == 0x5A && t.reg 1 == 0) = true := by
  decide

/-- T-DSP-4, T-DSP-10: wrapping on both axes, and a collision; of the cells that stay dark, those next to the lit ones. -/
theorem test_draw :
    cycleEnds ((((putBytes (start 0xD122) 0x300 [0xC3, 0x81]).setIndex 0x300).setReg 1 0x3E).setReg 2 0x1F)
      (fun t => [(31, 62), (31, 63), (31, 4), (31, 5), (0, 62), (0, 5)].all t.fb.cell &&
        [(31, 61), (31, 0), (31, 3), (31, 6), (0, 63), (0, 4), (0, 6), (1, 62)].all (fun p => !t.fb.cell p) &&
        t.reg vF == 0) = true ∧
    cycleEnds (lightCells ((putBytes (start 0xD121) 0x300 [0xF0]).setIndex 0x300) [(0, 3), (0, 4)])
      (fun t => [(0, 0), (0, 1), (0, 2), (0, 4)].all t.fb.cell && !t.fb.cell (0, 3) && !t.fb.cell (0, 5) &&
        t.reg vF == 1) = true := by decide

/-- T-DSP-7, T-DSP-8, T-DSP-12. -/
theorem test_draw_edges :
    cycleEnds (((start 0xD120).setIndex 0xFFF).setReg vF 9) (fun t => t.reg vF == 0 && !t.halted) = true ∧
    cycleEnds (((start 0xD122).setIndex 0xFFF).setReg vF 9)
      (fun t => faulted .addressOutOfRange (some 0x1000) t && t.reg vF == 9) = true ∧
    cycleEnds ((((putBytes (start 0xDF11) 0x300 [0x80]).setIndex 0x300).setReg vF 4).setReg 1 2)
      (fun t => t.fb.cell (2, 4) && !t.fb.cell (4, 2) && !t.fb.cell (2, 5) && t.reg vF == 0) = true := by decide

/-- T-KT-3, T-KT-4, T-KT-5. -/
theorem test_skp : cycleEnds ((start 0xE19E 0xFBFF).setReg 1 0xA) (fun t => t.pc == 0x202) = true ∧
    cycleEnds ((start 0xE19E 0x8000).setReg 1 0xF) (fun t => t.pc == 0x204) = true ∧
    cycleEnds ((start 0xE19E 0xFFFF).setReg 1 0x10) (faulted .keyIndexOutOfRange (some 0x10)) = true := by decide

/-- T-KT-6, T-KT-7, T-KT-8. -/
theorem test_sknp : cycleEnds ((start 0xE1A1 0x0000).setReg 1 0xA) (fun t => t.pc == 0x204) = true ∧
    cycleEnds ((start 0xE1A1 0x0400).setReg 1 0xA) (fun t => t.pc == 0x202) = true ∧
    cycleEnds ((start 0xE1A1).setReg 1 0xFF) (faulted .keyIndexOutOfRange (some 0xFF)) = true := by decide

/-- T-KT-14. -/
theorem test_ldVxDT : cycleEnds ((start 0xF207).setDT 0x1E) (fun t => t.reg 2 == 0x1E && t.dt == 0x1D) = true := by decide

/-- S7b, T-KT-12: the wait, and its end. -/
theorem test_ldVxK :
    cycleEnds (((start 0xF00A 0x0000).setDT 3).setST 1) (fun t => t.pc == 0x200 && t.reg 0 == 0 && t.dt == 2 && t.st == 0) = true ∧
    cycleEnds (start 0xF00A 0x0088) (fun t => t.pc == 0x202 && t.reg 0 == 3) = true ∧
    cycleEnds (start 0xF50A 0x8000) (fun t => t.reg 5 == 0xF) = true := by decide

/-- T-KT-16, T-KT-18. -/
theorem test_ldDT : cycleEnds ((start 0xF115).setReg 1 5) (fun t => t.dt == 4) = true ∧
    cycleEnds ((start 0xF115).setDT 9) (fun t => t.dt == 0) = true := by decide

/-- T-KT-20, T-KT-21. -/
theorem test_ldST : cycleEnds ((start 0xF118).setReg 1 3) (fun t => t.st == 2 && t.soundActive) = true ∧
    cycleEnds ((start 0xF118).setReg 1 1) (fun t => t.st == 0 && !t.soundActive) = true := by decide

/-- The word placed for the host is the one the next cycle runs, also in a halted core whose `pc` left `mem`. -/
theorem test_withFetchWord :
    cycleEnds (State.reset.withFetchWord 16 0x6301) (fun t => t.reg 3 == 1 && t.ir == 0x6301) = true ∧
    cycleEnds (({ State.reset with halted := true, pc := 0x1000 } : State).withFetchWord 16 0x6301)
      (fun t => t.reg 3 == 1 && t.pc == 0x202) = true := by decide

/-! ### For each statement with hypotheses, states and operands that meet them all -/

theorem witness_EncodeOfDecode : decodeWord 0x8AB6 = some (.shr 0xA 0xB) := by decide

theorem witness_OpcodeMapSelects :
    (⟨"SHR_Vx", 0x8006, 0xF00F⟩ : OpcodeRow) ∈ opcodeMap ∧ (0x8AB6 : Word) &&& 0xF00F = 0x8006 := by decide

/-- The lowest and the highest `pc` of a fetch. -/
theorem witness_StepRunsDecoded :
    (let s := (start 0).setPc 0xFFE
     let t := { s with mem := s.mem.writeBlock 0xFFE [0x6A, 0x55] }
     t.halted = false ∧ t.pc.toNat ≤ 0x0FFE ∧ t.mem.read t.pc.toNat = 0x6A ∧ t.mem.read (t.pc.toNat + 1) = 0x55 ∧
     decodeWord ((0x6A : Byte) ++ (0x55 : Byte)) = some (.ldImm 0xA 0x55)) ∧
    (let s := (putBytes (start 0) 0 [0xF0]).setPc 0x4E
     s.halted = false ∧ s.pc.toNat ≤ 0x0FFE ∧ s.mem.read s.pc.toNat = 0x80 ∧ s.mem.read (s.pc.toNat + 1) = 0x80 ∧
     decodeWord ((0x80 : Byte) ++ (0x80 : Byte)) = some (.ldReg 0 8)) := by decide

theorem witness_UnknownOpcodeCycle :
    ((start 0x8128).halted = false ∧ (start 0x8128).fetch = some 0x8128 ∧ decodeWord 0x8128 = none ∧
      (start 0x8128).unknownPolicy = .goOn) ∧
    (let s := (start 0x0000).setPolicies .halt .halt
     s.halted = false ∧ s.fetch = some 0x0000 ∧ decodeWord 0x0000 = none ∧ s.unknownPolicy = .halt) := by decide

theorem witness_FetchFaultCycle :
    (State.reset.setPc 0x0FFF).halted = false ∧ 0x0FFE < (State.reset.setPc 0x0FFF).pc.toNat ∧
    (State.reset.setPc 0xFFFF).halted = false ∧ 0x0FFE < (State.reset.setPc 0xFFFF).pc.toNat := by decide

theorem witness_HaltedForever : ({ start 0x6301 with halted := true } : State).halted = true ∧ 0 < 2 := by decide

/-- A fatal fault of an instruction, of an unknown word and of the fetch. -/
theorem witness_FatalFaultIsPrecise :
    (∃ t, (start 0x00EE).halted = false ∧ step (start 0x00EE) = .next t ∧ t.halted = true) ∧
    (∃ t, ((start 0).setPolicies .halt .halt).halted = false ∧ step ((start 0).setPolicies .halt .halt) = .next t ∧
      t.halted = true) ∧
    (∃ t, ((start 0).setPc 0xFFF).halted = false ∧ step ((start 0).setPc 0xFFF) = .next t ∧ t.halted = true) :=
  ⟨⟨_, by decide, rfl, by decide⟩, ⟨_, by decide, rfl, by decide⟩, ⟨_, by decide, rfl, by decide⟩⟩

/-- A cycle that writes neither timer, one that writes `DT` and one that writes `ST`. -/
theorem witness_TimersTickOncePerCycle :
    (∃ t, (start 0x6000).halted = false ∧ step (start 0x6000) = .next t ∧ t.halted = false ∧
      ∀ w x, (start 0x6000).fetch = some w → decodeWord w ≠ some (.ldDT x) ∧ decodeWord w ≠ some (.ldST x)) ∧
    (∃ t, (start 0xF115).halted = false ∧ step (start 0xF115) = .next t ∧ t.halted = false ∧
      (start 0xF115).fetch = some 0xF115 ∧ decodeWord 0xF115 = some (.ldDT 1)) ∧
    (∃ t, (start 0xF118).halted = false ∧ step (start 0xF118) = .next t ∧ t.halted = false ∧
      (start 0xF118).fetch = some 0xF118 ∧ decodeWord 0xF118 = some (.ldST 1)) := by
  refine ⟨⟨_, by decide, rfl, by decide, fun w x hf => ?_⟩, ⟨_, by decide, rfl, by decide, by decide, by decide⟩,
    ⟨_, by decide, rfl, by decide, by decide, by decide⟩⟩
  obtain rfl : (0x6000 : Word) = w := Option.some.inj hf
  rw [show decodeWord 0x6000 = some (.ldImm 0 0) from by decide]
  simp

theorem witness_SoundTimerCountsDown :
    ∃ t, core.run 1 ((start 0x6000).setST 2) = .next t ∧ t.halted = false ∧
      ∀ k u w x, k < 1 → core.run k ((start 0x6000).setST 2) = .next u → u.fetch = some w →
        decodeWord w ≠ some (.ldST x) := by
  refine ⟨_, rfl, by decide, fun k u w x hk hr hf => ?_⟩
  obtain rfl : k = 0 := by omega
  rw [← core_run_zero hr] at hf
  obtain rfl : (0x6000 : Word) = w := Option.some.inj hf
  rw [show decodeWord 0x6000 = some (.ldImm 0 0) from by decide]
  simp

theorem witness_StepStopsOnlyOnContinuedStackFault :
    (∃ r, step ((start 0x00EE).setPolicies .goOn .goOn) = .fault r) ∧
    (∃ r, step { (start 0x2300).setPolicies .goOn .goOn with sp := 16 } = .fault r) ∧ (start 0x00EE).stackPolicy = .halt :=
  ⟨⟨_, rfl⟩, ⟨_, rfl⟩, rfl⟩

theorem witness_StepKeepsParameters :
    ∃ t, step ((start 0x00EE).setPolicies .halt .halt) = .next t := ⟨_, rfl⟩

/-- `Cxkk` with other keys, `Ex9E` with another random byte, and an instruction that reads neither. -/
theorem witness_OtherInputsDoNotMatter :
    (∃ t, readsKeys (.rnd 1 0x0F) = false ∧
      ({ start 0xC10F 0 0xA7 with inputs := [⟨0xFFFF, 0xA7⟩] } : State).input.rnd = (start 0xC10F 0 0xA7).input.rnd ∧
      exec (.rnd 1 0x0F) (start 0xC10F 0 0xA7) = .next t) ∧
    (∃ t, readsRnd (.skp 1) = false ∧
      ({ start 0xE19E 1 0 with inputs := [⟨1, 0x55⟩] } : State).input.keys = (start 0xE19E 1 0).input.keys ∧
      exec (.skp 1) (start 0xE19E 1 0) = .next t) ∧
    (∃ t, readsKeys .cls = false ∧ readsRnd .cls = false ∧ exec .cls (start 0x00E0) = .next t) :=
  ⟨⟨_, by decide, by decide, rfl⟩, ⟨_, by decide, by decide, rfl⟩, ⟨_, by decide, by decide, rfl⟩⟩

theorem witness_CallPushes :
    (start 0x2300).sp.val < 16 ∧ ({ start 0x2300 with sp := 15 } : State).sp.val < 16 ∧
    ({ start 0x2300 with sp := 16 } : State).sp.val = 16 ∧
    ({ start 0x2300 with sp := 16 } : State).stackPolicy = .halt := by decide

theorem witness_ReturnPops :
    0 < ({ start 0x00EE with sp := 1 } : State).sp.val ∧ 0 < ({ start 0x00EE with sp := 16 } : State).sp.val ∧
    (start 0x00EE).sp.val = 0 ∧ (start 0x00EE).stackPolicy = .halt := by decide

theorem witness_ContinuedStackFaultStops :
    ((start 0x00EE).setPolicies .goOn .goOn).stackPolicy = .goOn ∧ ((start 0x00EE).setPolicies .goOn .goOn).sp.val = 0 ∧
    ({ (start 0x2300).setPolicies .goOn .goOn with sp := 16 } : State).stackPolicy = .goOn ∧
    ({ (start 0x2300).setPolicies .goOn .goOn with sp := 16 } : State).sp.val = 16 := by decide

theorem witness_CallThenReturn :
    ∃ t u : State, ({ start 0x2300 with sp := 15 } : State).sp.val < 16 ∧
      exec (.call 0x300) { start 0x2300 with sp := 15 } = .next t ∧ u.stack = t.stack ∧ u.sp = t.sp :=
  ⟨_, _, by decide, rfl, rfl, rfl⟩

theorem witness_AddWithCarry : (1 : Reg) ≠ vF ∧ (2 : Reg) ≠ 1 ∧ (2 : Reg) ≠ vF := by decide

theorem witness_SubtractWithNotBorrow : (0 : Reg) ≠ vF ∧ (14 : Reg) ≠ 0 ∧ (14 : Reg) ≠ vF := by decide

theorem witness_ShiftsByOne : (14 : Reg) ≠ vF ∧ (15 : Reg) = vF ∧ (0 : Reg) ≠ 14 ∧ (0 : Reg) ≠ vF := by decide

/-- The lowest and the highest `I` of the store. -/
theorem witness_BcdStoresDigits :
    let s := (start 0xF233).setIndex 80
    let t := (start 0xF233).setIndex 0xFFD
    s.mem.wf ∧ 80 ≤ s.index.toNat ∧ s.index.toNat + 2 ≤ 0x0FFF ∧ t.mem.wf ∧ 80 ≤ t.index.toNat ∧
      t.index.toNat + 2 ≤ 0x0FFF := by decide

/-- A state with `I` given. -/
def indexed (i : Word) : State := State.reset.setIndex i

/-- `x = 0` with `I` in the font, one byte just above the font, 15 bytes up to the last, and one at the last. -/
theorem witness_BlockStore :
    (indexed 0).mem.wf ∧ (indexed 80).mem.wf ∧ (indexed 0xFF1).mem.wf ∧ (indexed 0xFFF).mem.wf ∧ (0 : Reg).val = 0 ∧
    (80 ≤ (indexed 80).index.toNat ∧ (indexed 80).index.toNat + (1 : Reg).val ≤ 0x1000) ∧
    (80 ≤ (indexed 0xFF1).index.toNat ∧ (indexed 0xFF1).index.toNat + (15 : Reg).val ≤ 0x1000) ∧
    (80 ≤ (indexed 0xFFF).index.toNat ∧ (indexed 0xFFF).index.toNat + (1 : Reg).val ≤ 0x1000) := by decide

theorem witness_BlockLoad :
    (0 : Reg).val = 0 ∧ (indexed 0).index.toNat + (5 : Reg).val ≤ 0x1000 ∧
    (indexed 0xFF1).index.toNat + (15 : Reg).val ≤ 0x1000 ∧ (indexed 0xFFF).index.toNat + (1 : Reg).val ≤ 0x1000 := by
  decide

/-- Both stores at the first address that leaves `mem`, and at the last address of the font. -/
theorem witness_StoreFaults :
    ((Instr.ldB 2 = .ldB 2 ∧ 3 = 3) ∧ 0x1000 < (indexed 0xFFE).index.toNat + 3) ∧
    ((Instr.storeRegs 15 = .storeRegs 15 ∧ 15 = (15 : Reg).val) ∧ 0x1000 < (indexed 0xFF2).index.toNat + 15) ∧
    (indexed 0x4F).index.toNat < 80 ∧ (Instr.storeRegs 1 = .storeRegs 1 ∧ 1 = (1 : Reg).val) := by decide

theorem witness_ReadFaults :
    ((Instr.loadRegs 2 = .loadRegs 2 ∧ 2 = (2 : Reg).val) ∧ 0x1000 < (indexed 0xFFF).index.toNat + 2) ∧
    ((Instr.draw 1 2 15 = .draw 1 2 15 ∧ 15 = (15 : BitVec 4).toNat) ∧ 0x1000 < (indexed 0xFF2).index.toNat + 15) := by
  decide

theorem witness_StoreThenLoad :
    ∃ t u : State, storeStart.mem.wf ∧ 80 ≤ storeStart.index.toNat ∧ storeStart.index.toNat + (3 : Reg).val ≤ 0x1000 ∧
      exec (.storeRegs 3) storeStart = .next t ∧ u.mem = t.mem ∧ u.index = storeStart.index :=
  ⟨_, storeStart.setMem _, by decide, by decide, by decide, rfl, rfl, rfl⟩

theorem witness_BcdThenLoad :
    ∃ t u : State, storeStart.mem.wf ∧ 80 ≤ storeStart.index.toNat ∧ storeStart.index.toNat + 2 ≤ 0x0FFF ∧
      exec (.ldB 3) storeStart = .next t ∧ u.mem = t.mem ∧ u.index = storeStart.index :=
  ⟨_, storeStart.setMem _, by decide, by decide, by decide, rfl, rfl, rfl⟩

theorem witness_FetchSeesStore :
    ∃ t u : State, storeStart.mem.wf ∧ 80 ≤ storeStart.index.toNat ∧ storeStart.index.toNat ≤ 0x0FFE ∧
      exec (.storeRegs 2) storeStart = .next t ∧ u.mem = t.mem ∧ u.pc = storeStart.index :=
  ⟨_, (storeStart.setMem _).setPc 0x400, by decide, by decide, by decide, rfl, rfl, rfl⟩

/-- `n = 0` whatever `I` is, 15 rows up to the last byte, and cells that the sprite covers, lit and not, and does not. -/
theorem witness_DrawInvertsSpriteCells :
    ((0 : BitVec 4) = 0 ∨ ((start 0).setIndex 0xFFFF).index.toNat + (0 : BitVec 4).toNat ≤ 0x1000) ∧
    ((15 : BitVec 4) = 0 ∨ ((start 0).setIndex 0xFF1).index.toNat + (15 : BitVec 4).toNat ≤ 0x1000) ∧
    spriteCovers (start 0) 63 31 2 (0, 63) ∧ (lightCells (start 0) [(0, 63)]).fb.cell (0, 63) = true ∧
    ¬spriteCovers (start 0) 63 31 0 (0, 63) := by
  refine ⟨by decide, by decide, ⟨1, 0, by decide⟩, by decide, ?_⟩
  rintro ⟨r, c, h, _⟩
  omega

theorem witness_DrawTwiceRestores :
    ∃ t u : State, ((5 : BitVec 4) = 0 ∨ (start 0xD015).index.toNat + (5 : BitVec 4).toNat ≤ 0x1000) ∧
      exec (.draw 0 1 5) (start 0xD015) = .next t ∧ u.fb = t.fb ∧ u.mem = t.mem ∧ u.index = t.index ∧
      u.reg 0 = (start 0xD015).reg 0 ∧ u.reg 1 = (start 0xD015).reg 1 :=
  ⟨_, (start 0xD015).setFb _, by decide, rfl, rfl, rfl, rfl, rfl, rfl⟩

theorem witness_ClearThenDraw :
    ∃ t, ((5 : BitVec 4) = 0 ∨ (start 0x00E0).index.toNat + (5 : BitVec 4).toNat ≤ 0x1000) ∧
      exec .cls (start 0x00E0) = .next t := ⟨_, by decide, rfl⟩

theorem witness_KeySkips :
    ((start 0xE19E).reg 1).toNat ≤ 15 ∧ (((start 0xE19E).setReg 1 15).reg 1).toNat ≤ 15 := by decide

theorem witness_KeyIndexFaults :
    (Instr.skp 1 = .skp 1 ∨ Instr.skp 1 = .sknp 1) ∧ 15 < (((start 0xE19E).setReg 1 16).reg 1).toNat ∧
    (Instr.sknp 1 = .skp 1 ∨ Instr.sknp 1 = .sknp 1) ∧ 15 < (((start 0xE1A1).setReg 1 255).reg 1).toNat := by decide

theorem witness_WaitForKey :
    (start 0xF00A 0).input.keys = 0 ∧ (start 0xF00A 0x8000).input.keys ≠ 0 ∧ (start 0xF00A 1).input.keys ≠ 0 ∧
    (start 0xF00A 0).halted = false ∧ (start 0xF00A 0).fetch = some 0xF00A ∧ decodeWord 0xF00A = some (.ldVxK 0) := by
  decide

theorem witness_TimerCycles :
    ((start 0xF207).halted = false ∧ (start 0xF207).fetch = some 0xF207 ∧ decodeWord 0xF207 = some (.ldVxDT 2)) ∧
    ((start 0xF215).halted = false ∧ (start 0xF215).fetch = some 0xF215 ∧ decodeWord 0xF215 = some (.ldDT 2)) ∧
    ((start 0xF218).halted = false ∧ (start 0xF218).fetch = some 0xF218 ∧ decodeWord 0xF218 = some (.ldST 2)) := by decide

theorem witness_RegisterFrame :
    (∃ t, exec (.addReg 1 2) (start 0x8124) = .next t ∧ mayWriteReg (.addReg 1 2) 2 = false) ∧
    (∃ t, exec (.loadRegs 3) (start 0xF365) = .next t ∧ mayWriteReg (.loadRegs 3) 3 = false) :=
  ⟨⟨_, rfl, by decide⟩, ⟨_, rfl, by decide⟩⟩

theorem witness_MemoryFrame :
    ∃ t, exec (.storeRegs 3) storeStart = .next t ∧ 0x403 ∉ storeAddresses (.storeRegs 3) storeStart ∧
      0x3FF ∉ storeAddresses (.storeRegs 3) storeStart := ⟨_, rfl, by decide, by decide⟩

theorem witness_SpecialStateFrame :
    ∃ t, exec (.ldImm 1 2) (start 0x6102) = .next t ∧ mayWriteIndex (.ldImm 1 2) = false ∧
      mayWritePc (.ldImm 1 2) = false ∧ mayWriteStack (.ldImm 1 2) = false ∧ mayWriteFb (.ldImm 1 2) = false ∧
      (∀ x, Instr.ldImm 1 2 ≠ .ldDT x) ∧ (∀ x, Instr.ldImm 1 2 ≠ .ldST x) :=
  ⟨_, rfl, by decide, by decide, by decide, by decide, by decide, by decide⟩

theorem witness_FaultsAsListed :
    (∃ t, exec (.ldB 2) ((start 0xF233).setIndex 0x4F) = .next t) ∧ (∃ t, exec .cls (start 0x00E0) = .next t) :=
  ⟨⟨_, rfl⟩, ⟨_, rfl⟩⟩

/-- A store to the font, and a store just above it. -/
theorem witness_FontIsImmutable :
    (∃ t, step ((start 0xF155).setIndex 79) = .next t ∧ 79 < 80) ∧
    (∃ t, step ((start 0xF155).setIndex 80) = .next t ∧ 79 < 80) :=
  ⟨⟨_, rfl, by decide⟩, ⟨_, rfl, by decide⟩⟩

/-- The invariant of a state whose parts meet it one by one. -/
theorem inv_of_parts (s : State) (hw : s.mem.wf) (hf : s.mem.fontIntact) (hi : s.index.toNat ≤ 0x0FFF)
    (hp : s.pc.toNat ≤ 0x1002) (hk : ∀ k : Fin 16, s.stack[k.val].toNat ≤ 0x1000) (hh : s.halted = false)
    (hr : s.faultPc = 0) (hl : s.started = false) : s.Inv :=
  ⟨hw, hf, hi, hp, hk, fun h => by simp [hh] at h, fun _ => ⟨hr, hh⟩, fun _ => hl⟩

/-- A store by a running core with `I` at the top, and the fetch fault of the highest `pc`. -/
theorem witness_StepKeepsInvariant :
    (∃ t, ((start 0xF155).setIndex 0xFFF).Inv ∧ step ((start 0xF155).setIndex 0xFFF) = .next t) ∧
    (∃ t, ((start 0).setPc 0x1002).Inv ∧ step ((start 0).setPc 0x1002) = .next t) :=
  ⟨⟨_, inv_of_parts _ (by decide) (by decide) (by decide) (by decide) (by decide) rfl rfl rfl, rfl⟩,
   ⟨_, inv_of_parts _ (by decide) (by decide) (by decide) (by decide) (by decide) rfl rfl rfl, rfl⟩⟩

/-- The longest program, and one byte more (T-LD-3, T-LD-4). -/
theorem witness_LoadCopiesProgram :
    State.reset.loadable = true ∧ State.reset.mem.wf ∧
    (List.replicate 3584 (0xAB : Byte)).length ≤ 4096 - 0x200 ∧
    4096 - 0x200 < (List.replicate 3585 (0xAB : Byte)).length := by
  exact ⟨rfl, by decide, Nat.le_of_eq List.length_replicate,
    Nat.lt_of_lt_of_eq (by decide) List.length_replicate.symm⟩

theorem witness_LoadOnlyBeforeFirstCycle :
    ({ State.reset with loadable := false } : State).loadable = false ∧
    (∃ t, step (start 0x6000) = .next t) ∧ (∃ t, State.reset.load [0x63] = .loaded t) :=
  ⟨rfl, ⟨_, rfl⟩, ⟨_, rfl⟩⟩

/-- One cycle of each instruction that reads an input, with keys held and none, and a state with no input presented. -/
theorem witness_CycleReadsPresentedInput :
    ((start 0xC10F 0 0xA7).inputs = [⟨0, 0xA7⟩] ∧ (start 0xC10F 0 0xA7).halted = false ∧
      (start 0xC10F 0 0xA7).fetch = some 0xC10F ∧ decodeWord 0xC10F = some (.rnd 1 0x0F)) ∧
    ((start 0xE19E 1).inputs = [⟨1, 0⟩] ∧ (start 0xE19E 1).fetch = some 0xE19E ∧ decodeWord 0xE19E = some (.skp 1) ∧
      ((start 0xE19E 1).reg 1).toNat ≤ 15) ∧
    ((start 0xE1A1 1).inputs = [⟨1, 0⟩] ∧ (start 0xE1A1 1).fetch = some 0xE1A1 ∧ decodeWord 0xE1A1 = some (.sknp 1) ∧
      (((start 0xE1A1 1).setReg 1 15).reg 1).toNat ≤ 15) ∧
    ((start 0xF00A 0).inputs = [⟨0, 0⟩] ∧ (start 0xF00A 0).fetch = some 0xF00A ∧ decodeWord 0xF00A = some (.ldVxK 0)) ∧
    (start 0xF00A 0x8000).inputs = [⟨0x8000, 0⟩] ∧ State.reset.inputs = [] := by decide

/-- Before the first cycle, after it, and a load between reset and the first cycle. -/
theorem witness_ConfigureOnlyBeforeFirstCycle :
    State.reset.started = false ∧ ({ State.reset with started := true } : State).started = true ∧
    (∃ t, step (start 0x6000) = .next t) ∧ (∃ t, State.reset.load [0x63] = .loaded t) :=
  ⟨rfl, rfl, ⟨_, rfl⟩, ⟨_, rfl⟩⟩
end

/-! PROOFS. The host's side of the state (R6, R43, R284): the policies, the presented inputs, the cycle number and the two
windows. No instruction writes it, and every cycle ends in `State.endCycle`, which alone moves it on. -/

namespace Sys2Proof.Machine

/-- The two states have the same policies, presented inputs, cycle number and windows. -/
structure State.SameHostFields (s t : State) : Prop where
  unknownPolicy : t.unknownPolicy = s.unknownPolicy
  stackPolicy : t.stackPolicy = s.stackPolicy
  inputs : t.inputs = s.inputs
  cycle : t.cycle = s.cycle
  loadable : t.loadable = s.loadable
  started : t.started = s.started

namespace State.SameHostFields

theorem trans {s u t : State} (h : s.SameHostFields u) (h' : u.SameHostFields t) : s.SameHostFields t :=
  ⟨h'.unknownPolicy.trans h.unknownPolicy, h'.stackPolicy.trans h.stackPolicy, h'.inputs.trans h.inputs,
    h'.cycle.trans h.cycle, h'.loadable.trans h.loadable, h'.started.trans h.started⟩

theorem setReg (s : State) (x : Reg) (b : Byte) : s.SameHostFields (s.setReg x b) := ⟨rfl, rfl, rfl, rfl, rfl, rfl⟩

theorem setLowRegs (s : State) (bytes : List Byte) : s.SameHostFields (s.setLowRegs bytes) :=
  ⟨s.setLowRegs_unknownPolicy bytes, s.setLowRegs_stackPolicy bytes, s.setLowRegs_inputs bytes,
    s.setLowRegs_cycle bytes, s.setLowRegs_loadable bytes, s.setLowRegs_started bytes⟩

theorem setPc (s : State) (w : Word) : s.SameHostFields (s.setPc w) := ⟨rfl, rfl, rfl, rfl, rfl, rfl⟩

theorem skipIf (s : State) (c : Bool) : s.SameHostFields (s.skipIf c) := setPc s _

theorem setMem (s : State) (m : Memory) : s.SameHostFields (s.setMem m) := ⟨rfl, rfl, rfl, rfl, rfl, rfl⟩

theorem afterFetch (s : State) (w : Word) : s.SameHostFields (s.afterFetch w) := ⟨rfl, rfl, rfl, rfl, rfl, rfl⟩

theorem recordFault (s : State) (k : FaultKind) (p : Word) (d : Option Nat) (f : Bool) :
    s.SameHostFields (s.recordFault k p d f) := ⟨rfl, rfl, rfl, rfl, rfl, rfl⟩

theorem raise (s : State) (k : FaultKind) (d : Option Nat) : s.SameHostFields (s.raise k d) := recordFault s k _ d true

theorem storeBytes (s : State) (bytes : List Byte) : s.SameHostFields (s.storeBytes bytes) := by
  obtain ⟨-, h⟩ | ⟨k, a, -, -, h⟩ := s.storeBytes_cases bytes
  · rw [h]
    exact setMem s _
  · rw [h]
    exact raise s k _

/-- A stack fault that is taken writes the fault record only (R247). -/
theorem of_raiseStackFault {s t : State} {k : FaultKind} (h : s.raiseStackFault k = .next t) : s.SameHostFields t := by
  obtain ⟨-, h'⟩ | ⟨-, h'⟩ := s.raiseStackFault_cases k
  · cases h'.symm.trans h
    exact raise s k none
  · cases h'.symm.trans h

theorem of_execCall {nnn : BitVec 12} {s t : State} (h : execCall nnn s = .next t) : s.SameHostFields t := by
  unfold execCall at h
  obtain ⟨-, hpush⟩ | ⟨_, hpush⟩ := s.push_cases s.pc
  · rw [hpush] at h
    exact of_raiseStackFault h
  · rw [hpush] at h
    cases h
    exact ⟨rfl, rfl, rfl, rfl, rfl, rfl⟩

theorem of_execRet {s t : State} (h : execRet s = .next t) : s.SameHostFields t := by
  unfold execRet at h
  obtain ⟨-, hpop⟩ | ⟨_, hpop⟩ := s.pop_cases
  · rw [hpop] at h
    exact of_raiseStackFault h
  · rw [hpop] at h
    cases h
    exact ⟨rfl, rfl, rfl, rfl, rfl, rfl⟩

theorem of_execDraw {x y : Reg} {n : BitVec 4} {s t : State} (h : execDraw x y n s = .next t) : s.SameHostFields t := by
  unfold execDraw at h
  cases hload : s.loadBytes n.toNat with
  | error a =>
    rw [hload] at h
    cases h
    exact raise s _ _
  | ok rows =>
    rw [hload] at h
    cases h
    exact ⟨rfl, rfl, rfl, rfl, rfl, rfl⟩

theorem of_execLoadRegs {x : Reg} {s t : State} (h : execLoadRegs x s = .next t) : s.SameHostFields t := by
  unfold execLoadRegs at h
  cases hload : s.loadBytes x.val with
  | error a =>
    rw [hload] at h
    cases h
    exact raise s _ _
  | ok bytes =>
    rw [hload] at h
    obtain rfl := Host.Outcome.next.inj h
    exact setLowRegs s bytes

/-- Both key skips have this shape: a key index fault or a skip (R220, R222). -/
theorem of_raise_or_skipIf {s t : State} {p : Prop} [Decidable p] {k : FaultKind} {d : Option Nat} {c : Bool}
    (h : (if p then .next (s.raise k d) else .next (s.skipIf c) : Host.Outcome State Fault Refusal) = .next t) :
    s.SameHostFields t := by
  split at h
  · cases h
    exact raise s k d
  · cases h
    exact skipIf s c

theorem of_execLdVxK {x : Reg} {s t : State} (h : execLdVxK x s = .next t) : s.SameHostFields t := by
  obtain rfl := Host.Outcome.next.inj h
  split
  · exact setPc s _
  · exact setReg s x _

/-- No instruction writes what is the host's (R6, R43). -/
theorem of_exec {i : Instr} {s t : State} (h : exec i s = .next t) : s.SameHostFields t := by
  cases i with
  | call nnn => exact of_execCall h
  | ret => exact of_execRet h
  | draw x y n => exact of_execDraw h
  | loadRegs x => exact of_execLoadRegs h
  | ldB x => cases h; exact storeBytes s _
  | storeRegs x => cases h; exact storeBytes s _
  | skp x => exact of_raise_or_skipIf h
  | sknp x => exact of_raise_or_skipIf h
  | ldVxK x => exact of_execLdVxK h
  | _ => cases h; exact ⟨rfl, rfl, rfl, rfl, rfl, rfl⟩

end State.SameHostFields

/-! ### The end of a cycle -/

@[simp] theorem State.endCycle_unknownPolicy (s : State) : s.endCycle.unknownPolicy = s.unknownPolicy := by
  cases h : s.halted <;> simp [State.endCycle, h]

@[simp] theorem State.endCycle_stackPolicy (s : State) : s.endCycle.stackPolicy = s.stackPolicy := by
  cases h : s.halted <;> simp [State.endCycle, h]

@[simp] theorem State.endCycle_inputs (s : State) : s.endCycle.inputs = s.inputs.tail := by
  cases h : s.halted <;> simp [State.endCycle, h]

@[simp] theorem State.endCycle_cycle (s : State) : s.endCycle.cycle = s.cycle + 1 := by
  cases h : s.halted <;> simp [State.endCycle, h]

@[simp] theorem State.endCycle_loadable (s : State) : s.endCycle.loadable = false := rfl

@[simp] theorem State.endCycle_started (s : State) : s.endCycle.started = true := rfl

/-- Up to its end, a cycle of any kind leaves what is the host's (R120). -/
theorem step_eq_endCycle {s t : State} (h : step s = .next t) : ∃ u, s.SameHostFields u ∧ t = u.endCycle := by
  obtain ⟨-, rfl⟩ | ⟨-, -, rfl⟩ | ⟨w, -, -, -, rfl⟩ | ⟨w, i, u, -, -, -, hexec, rfl⟩ := step_cases h
  · exact ⟨{ s with report := none }, ⟨rfl, rfl, rfl, rfl, rfl, rfl⟩, rfl⟩
  · exact ⟨s.raiseFetchFault, .recordFault s _ _ _ _, rfl⟩
  · exact ⟨(s.afterFetch w).raiseUnknownOpcode, .trans (.afterFetch s w) (.recordFault _ _ _ _ _), rfl⟩
  · exact ⟨u, .trans (.afterFetch s w) (.of_exec hexec), rfl⟩

/-- Settles O15: a cycle leaves the host's fields up to its end, and `State.endCycle` moves on to the next input. -/
theorem stepKeepsParameters : Obligations.StepKeepsParameters := by
  intro s t h
  obtain ⟨u, hu, rfl⟩ := step_eq_endCycle h
  simp [hu.unknownPolicy, hu.stackPolicy, hu.inputs, hu.cycle]

/-! ### The window for the parameters -/

theorem State.configure_of_not_started {s : State} (u k : FaultPolicy) (h : s.started = false) :
    s.configure u k = .configured (s.setPolicies u k) := by
  obtain ⟨-, hc⟩ | ⟨hs, -⟩ := s.configure_cases u k
  · exact hc
  · simp [h] at hs

theorem State.configure_of_started {s : State} (u k : FaultPolicy) (h : s.started = true) :
    s.configure u k = .refused .configureAfterFirstCycle := by
  obtain ⟨hs, -⟩ | ⟨-, hc⟩ := s.configure_cases u k
  · simp [h] at hs
  · exact hc

/-- A load that is made writes the program and closes its own window, and nothing else (R75, R77). -/
theorem State.load_eq_loaded {s t : State} {program : List Byte} (h : s.load program = .loaded t) :
    t = { s with mem := s.mem.writeBlock Config.programBase program, loadable := false } := by
  obtain ⟨-, hl⟩ | ⟨-, -, hl⟩ | ⟨-, -, hl⟩ := s.load_cases program
  · cases hl.symm.trans h
  · cases hl.symm.trans h
  · cases hl.symm.trans h
    rfl

theorem step_started {s t : State} (h : step s = .next t) : t.started = true := by
  obtain ⟨u, -, rfl⟩ := step_eq_endCycle h
  exact u.endCycle_started

/-- Settles O60: `State.configure` asks only whether a cycle has run, which only the end of a cycle says. -/
theorem configureOnlyBeforeFirstCycle : Obligations.ConfigureOnlyBeforeFirstCycle := by
  refine ⟨fun _ u k => State.configure_of_not_started u k, fun _ u k => State.configure_of_started u k,
    rfl, fun _ => rfl, fun _ _ => step_started, ?load, fun _ => ⟨rfl, rfl⟩, fun _ _ => ⟨rfl, rfl, rfl⟩⟩
  case load =>
    intro s t program h
    rw [State.load_eq_loaded h]
    exact ⟨rfl, rfl, rfl⟩

end Sys2Proof.Machine

/-! PROOFS. Everything an instruction can do to the state, said once (`ExecEffect`, `exec_effect`), so that the frames,
the timers and the invariant are read off its cases. -/

namespace Sys2Proof.Machine

/-- The ways an instruction can end in a next state: `ExecEffect i s t` says which update took `s` to `t`, with the
condition on `i` under which that update can happen (R22 to R33, R62, R240). -/
inductive ExecEffect (i : Instr) (s : State) : State → Prop where
  /-- One of the faults R240 lists for the instruction, and nothing else. -/
  | raised (k : FaultKind) (d : Option Nat) (hk : k ∈ faultsOf i) : ExecEffect i s (s.raise k d)
  /-- General registers, only those the instruction is said to write. -/
  | regs (v : Vector Byte 16) (hv : ∀ r, mayWriteReg i r = false → v[r.val] = s.reg r) : ExecEffect i s { s with v := v }
  | index (w : Word) (hi : mayWriteIndex i = true) (hw : w.toNat ≤ 0x0FFF) : ExecEffect i s (s.setIndex w)
  /-- `pc` stays, skips, goes back to the instruction, or jumps below 0x1000. -/
  | pc (w : Word) (hi : mayWritePc i = true) (hw : w = s.pc ∨ w = s.pc + 2 ∨ w = s.pc - 2 ∨ w.toNat ≤ 0x0FFF) :
    ExecEffect i s (s.setPc w)
  | called (nnn : BitVec 12) (hi : i = .call nnn) (hsp : s.sp.val < 16) :
    ExecEffect i s
      { s with stack := s.stack.set s.sp.val s.pc, sp := ⟨s.sp.val + 1, by omega⟩, pc := addrWord nnn }
  | returned (hi : i = .ret) (hsp : 0 < s.sp.val) :
    ExecEffect i s { s with sp := ⟨s.sp.val - 1, by omega⟩, pc := s.stack[s.sp.val - 1] }
  /-- The framebuffer, and for a draw `VF`. -/
  | screen (f : Framebuffer) (v : Vector Byte 16) (hi : mayWriteFb i = true)
    (hv : ∀ r, mayWriteReg i r = false → v[r.val] = s.reg r) : ExecEffect i s { s with fb := f, v := v }
  | delay (x : Reg) (hi : i = .ldDT x) : ExecEffect i s (s.setDT (s.reg x))
  | sound (x : Reg) (hi : i = .ldST x) : ExecEffect i s (s.setST (s.reg x))
  /-- Bytes at `I` and up that passed `StoreCheck`. -/
  | stored (bytes : List Byte) (hi : storeAddresses i s = addressSpan s.index.toNat bytes.length)
    (hb : bytes.length = 0 ∨ (Config.fontSize ≤ s.index.toNat ∧ s.index.toNat + bytes.length ≤ Config.memSize)) :
    ExecEffect i s (s.setMem (s.mem.writeBlock s.index.toNat bytes))

/-! ### Operands that stay in range -/

theorem addrWord_le (nnn : BitVec 12) : (addrWord nnn).toNat ≤ 0x0FFF := by
  simp only [addrWord]
  bv_omega

/-- Masking with 0x0FFF reduces modulo 4096 (R142, R192). -/
theorem and_0FFF_toNat (w : Word) : (w &&& 0x0FFF).toNat = w.toNat % 0x1000 := by
  rw [BitVec.toNat_and]
  exact Nat.and_two_pow_sub_one_eq_mod w.toNat 12

theorem jumpV0Target_le (nnn : BitVec 12) (b : Byte) : (jumpV0Target nnn b).toNat ≤ 0x0FFF := by
  rw [jumpV0Target, and_0FFF_toNat]
  omega

theorem indexSum_toNat (i : Word) (b : Byte) : (indexSum i b).toNat = (i.toNat + b.toNat) % 0x1000 := by
  rw [indexSum, and_0FFF_toNat]
  bv_omega

theorem glyphAddress_toNat (b : Byte) : (glyphAddress b).toNat = b.toNat * 5 := by
  simp only [glyphAddress, BitVec.toNat_mul, BitVec.toNat_setWidth, BitVec.ofNat_eq_ofNat,
    BitVec.toNat_ofNat]
  omega

/-! ### The effect of each kind of instruction -/

namespace ExecEffect

variable {i : Instr} {s : State}

theorem setReg_setReg {x y : Reg} (hx : mayWriteReg i x = true) (hy : mayWriteReg i y = true) (b c : Byte) :
    ExecEffect i s ((s.setReg x b).setReg y c) := by
  refine .regs _ fun r hr => ?_
  have hrx : r ≠ x := fun h => by simp [h, hx] at hr
  have hry : r ≠ y := fun h => by simp [h, hy] at hr
  exact ((s.setReg x b).setReg_reg y c r).trans (by simp [hrx, hry])

theorem setReg {x : Reg} (hx : mayWriteReg i x = true) (b : Byte) : ExecEffect i s (s.setReg x b) := by
  refine .regs _ fun r hr => ?_
  have hrx : r ≠ x := fun h => by simp [h, hx] at hr
  exact (s.setReg_reg x b r).trans (if_neg hrx)

theorem skipIf (hi : mayWritePc i = true) (c : Bool) : ExecEffect i s (s.skipIf c) := by
  refine .pc _ hi ?_
  cases c
  · exact .inl rfl
  · exact .inr (.inl rfl)

theorem of_raiseStackFault {k : FaultKind} (hk : k ∈ faultsOf i) {t : State} (h : s.raiseStackFault k = .next t) :
    ExecEffect i s t := by
  obtain ⟨-, h'⟩ | ⟨-, h'⟩ := s.raiseStackFault_cases k
  · cases h'.symm.trans h
    exact .raised k none hk
  · cases h'.symm.trans h

theorem of_execCall {nnn : BitVec 12} {t : State} (h : execCall nnn s = .next t) : ExecEffect (.call nnn) s t := by
  unfold execCall at h
  obtain ⟨-, hpush⟩ | ⟨hsp, hpush⟩ := s.push_cases s.pc
  · rw [hpush] at h
    exact of_raiseStackFault (by simp [faultsOf]) h
  · rw [hpush] at h
    cases h
    exact .called nnn rfl hsp

theorem of_execRet {t : State} (h : execRet s = .next t) : ExecEffect .ret s t := by
  unfold execRet at h
  obtain ⟨-, hpop⟩ | ⟨hsp, hpop⟩ := s.pop_cases
  · rw [hpop] at h
    exact of_raiseStackFault (by simp [faultsOf]) h
  · rw [hpop] at h
    cases h
    exact .returned rfl hsp

theorem of_execDraw {x y : Reg} {n : BitVec 4} {t : State} (h : execDraw x y n s = .next t) :
    ExecEffect (.draw x y n) s t := by
  unfold execDraw at h
  cases hload : s.loadBytes n.toNat with
  | error a =>
    rw [hload] at h
    cases h
    exact .raised _ _ (by simp [faultsOf])
  | ok rows =>
    rw [hload] at h
    cases h
    refine .screen _ _ rfl fun r hr => ?_
    have hrF : r ≠ vF := by simpa [mayWriteReg] using hr
    exact (State.setFlag_reg _ _ r).trans (if_neg hrF)

/-- A load of `x` bytes writes the registers below `x` (R200). -/
theorem of_execLoadRegs {x : Reg} {t : State} (h : execLoadRegs x s = .next t) : ExecEffect (.loadRegs x) s t := by
  unfold execLoadRegs at h
  cases hload : s.loadBytes x.val with
  | error a =>
    rw [hload] at h
    cases h
    exact .raised _ _ (by simp [faultsOf])
  | ok bytes =>
    rw [hload] at h
    obtain rfl := Host.Outcome.next.inj h
    refine .regs _ fun r hr => ?_
    have hlen : bytes.length ≤ r.val := by
      simpa [s.loadBytes_length _ _ hload, mayWriteReg] using hr
    exact (s.setLowRegs_reg bytes r).trans (List.getD_eq_default bytes (s.reg r) hlen)

theorem storeBytes {bytes : List Byte} (hi : storeAddresses i s = addressSpan s.index.toNat bytes.length)
    (hk : ∀ k, k = .addressOutOfRange ∨ k = .fontWriteProtect → k ∈ faultsOf i) : ExecEffect i s (s.storeBytes bytes) := by
  obtain ⟨hb, h⟩ | ⟨k, a, hkind, -, h⟩ := s.storeBytes_cases bytes
  · rw [h]
    exact .stored bytes hi hb
  · rw [h]
    exact .raised k _ (hk k hkind)

/-- Both key skips have this shape: a key index fault or a skip (R220, R222). -/
theorem of_raise_or_skipIf {t : State} {p : Prop} [Decidable p] {k : FaultKind} {d : Option Nat} {c : Bool}
    (hk : k ∈ faultsOf i) (hi : mayWritePc i = true)
    (h : (if p then .next (s.raise k d) else .next (s.skipIf c) : Host.Outcome State Fault Refusal) = .next t) :
    ExecEffect i s t := by
  split at h
  · cases h
    exact .raised k d hk
  · cases h
    exact skipIf hi c

theorem of_execLdVxK {x : Reg} {t : State} (h : execLdVxK x s = .next t) : ExecEffect (.ldVxK x) s t := by
  obtain rfl := Host.Outcome.next.inj h
  split
  · exact .pc _ rfl (.inr (.inr (.inl rfl)))
  · exact setReg (by simp [mayWriteReg]) _

end ExecEffect

open ExecEffect in
/-- Everything an instruction can do (R125). -/
theorem exec_effect {i : Instr} {s t : State} (h : exec i s = .next t) : ExecEffect i s t := by
  cases i with
  | cls => cases h; exact .screen _ s.v rfl fun _ _ => rfl
  | ret => exact of_execRet h
  | call nnn => exact of_execCall h
  | jump nnn => cases h; exact .pc _ rfl (.inr (.inr (.inr (addrWord_le nnn))))
  | jumpV0 nnn => cases h; exact .pc _ rfl (.inr (.inr (.inr (jumpV0Target_le nnn _))))
  | seImm | sneImm | seReg | sneReg => cases h; exact skipIf rfl _
  | ldImm | addImm | ldReg | orReg | andReg | xorReg | rnd | ldVxDT =>
    cases h; exact setReg (by simp [mayWriteReg]) _
  | addReg | subReg | subnReg | shr | shl =>
    cases h; exact setReg_setReg (by simp [mayWriteReg]) (by simp [mayWriteReg]) _ _
  | ldI nnn => cases h; exact .index _ rfl (addrWord_le nnn)
  | addI x =>
    cases h
    have := indexSum_toNat s.index (s.reg x)
    exact .index _ rfl (by omega)
  | ldF x =>
    cases h
    have := glyphAddress_toNat (s.reg x)
    exact .index _ rfl (by omega)
  | draw x y n => exact of_execDraw h
  | skp x => exact of_raise_or_skipIf (List.mem_singleton.mpr rfl) rfl h
  | sknp x => exact of_raise_or_skipIf (List.mem_singleton.mpr rfl) rfl h
  | ldVxK x => exact of_execLdVxK h
  | ldDT x => cases h; exact .delay x rfl
  | ldST x => cases h; exact .sound x rfl
  | ldB x => cases h; exact ExecEffect.storeBytes rfl (by simp [faultsOf])
  | storeRegs x => cases h; exact ExecEffect.storeBytes rfl (by simp [faultsOf])
  | loadRegs x => exact of_execLoadRegs h

end Sys2Proof.Machine

/-! PROOFS. The invariant (R23, R25, R69, R155, R253): every update keeps it, so every instruction and every cycle does. -/

namespace Sys2Proof.Machine

namespace State.Inv

variable {s : State}

theorem tick (h : s.Inv) : s.tick.Inv := { h with }

theorem nextInputs (h : s.Inv) : s.nextInputs.Inv := { h with loadWindow := nofun }

theorem endCycle (h : s.Inv) : s.endCycle.Inv := by
  cases hs : s.halted with
  | true => rw [s.endCycle_of_halted hs]; exact h.nextInputs
  | false => rw [s.endCycle_of_running hs]; exact h.tick.nextInputs

theorem afterFetch (h : s.Inv) (w : Word) (hpc : s.pc.toNat ≤ 0x0FFE) : (s.afterFetch w).Inv :=
  { h with pcRange := by rw [State.afterFetch_pc]; bv_omega }

/-- A recorded fault keeps the invariant if an unknown opcode halts the core only under its policy `halt` (R246). -/
theorem recordFault (h : s.Inv) (k : FaultKind) (p : Word) (d : Option Nat) (f : Bool)
    (hk : (s.halted || f) = true → k = .unknownOpcode → s.unknownPolicy = .halt) : (s.recordFault k p d f).Inv :=
  { h with
    haltedRecord := fun hh => ⟨k, rfl, hk hh⟩
    noRecord := nofun }

theorem setPc (h : s.Inv) {w : Word} (hw : w.toNat ≤ 0x1002) : (s.setPc w).Inv := { h with pcRange := hw }

theorem setMem (h : s.Inv) {m : Memory} (hw : m.wf) (hf : m.fontIntact) : (s.setMem m).Inv :=
  { h with memWf := hw, font := hf }

/-- A store that passed `StoreCheck` keeps the form of the memory and its font (R68, R69). -/
theorem writeBlock (h : s.Inv) (base : Nat) (bytes : List Byte)
    (hb : bytes.length = 0 ∨ (Config.fontSize ≤ base ∧ base + bytes.length ≤ Config.memSize)) :
    (s.setMem (s.mem.writeBlock base bytes)).Inv := by
  obtain h0 | ⟨hfont, hmem⟩ := hb
  · rw [List.length_eq_zero_iff.mp h0]
    exact h
  · exact h.setMem (Memory.writeBlock_wf _ _ _ hmem h.memWf) fun a ha =>
      (Memory.read_writeBlock_font _ _ _ hfont a ha).trans (h.font a ha)

/-- A push of an advanced `pc` keeps the return addresses in range (R144). -/
theorem call (h : s.Inv) (hpc : s.pc.toNat ≤ 0x1000) (hsp : s.sp.val < 16) (n : Fin 17) {w : Word}
    (hw : w.toNat ≤ 0x1002) : ({ s with stack := s.stack.set s.sp.val s.pc, sp := n, pc := w } : State).Inv :=
  { h with
    pcRange := hw
    stackRange := fun k => by
      rw [Vector.getElem_set]
      split
      · exact hpc
      · exact h.stackRange k }

end State.Inv

/-- No instruction raises UnknownOpcode: only a word that is none does (R246). -/
theorem ne_unknownOpcode_of_mem_faultsOf {i : Instr} {k : FaultKind} (hk : k ∈ faultsOf i) : k ≠ .unknownOpcode := by
  rintro rfl
  cases i <;> simp [faultsOf] at hk

/-- An instruction fetched inside `mem` keeps the invariant. Its address is at most 0x0FFE, so the advanced `pc` is at
least 2 and at most 0x1000: the wait of `Fx0A` does not wrap and a skip ends at 0x1002 at most (R155). -/
theorem State.Inv.exec {i : Instr} {s t : State} (h : s.Inv) (hlo : 2 ≤ s.pc.toNat) (hhi : s.pc.toNat ≤ 0x1000)
    (hexec : exec i s = .next t) : t.Inv := by
  cases exec_effect hexec with
  | raised k d hk => exact h.recordFault _ _ _ _ fun _ hu => absurd hu (ne_unknownOpcode_of_mem_faultsOf hk)
  | regs v hv => exact { h with }
  | index w hi hw => exact { h with indexRange := hw }
  | pc w hi hw =>
    refine h.setPc ?_
    obtain rfl | rfl | rfl | hw := hw <;> bv_omega
  | called nnn hi hsp =>
    have := addrWord_le nnn
    exact h.call hhi hsp _ (by omega)
  | returned hi hsp =>
    have hret : s.stack[s.sp.val - 1].toNat ≤ 0x1000 := h.stackRange ⟨s.sp.val - 1, by omega⟩
    exact { h with pcRange := hret.trans (by decide) }
  | screen f v hi hv => exact { h with }
  | delay x hi => exact { h with }
  | sound x hi => exact { h with }
  | stored bytes hi hb => exact h.writeBlock _ _ hb

theorem State.pc_le_of_fetch {s : State} {w : Word} (h : s.fetch = some w) : s.pc.toNat ≤ 0x0FFE := by
  obtain ⟨-, hf⟩ | ⟨hpc, -⟩ := s.fetch_cases
  · cases hf.symm.trans h
  · exact hpc

/-- Settles O54: each kind of cycle keeps the invariant up to its end, and the end keeps it too. -/
theorem stepKeepsInvariant : Obligations.StepKeepsInvariant := by
  intro s t h hstep
  obtain ⟨-, rfl⟩ | ⟨-, -, rfl⟩ | ⟨w, hrun, hfetch, -, rfl⟩ | ⟨w, i, u, -, hfetch, -, hexec, rfl⟩ := step_cases hstep
  · have : ({ s with report := none } : State).Inv := { h with }
    exact this.endCycle
  · exact (h.recordFault .addressOutOfRange _ _ _ fun _ => nofun).endCycle
  · have hpc := State.pc_le_of_fetch hfetch
    refine ((h.afterFetch w hpc).recordFault _ _ _ _ fun hhalt _ => ?_).endCycle
    simpa [hrun] using hhalt
  · have hpc := State.pc_le_of_fetch hfetch
    have hadv : (s.afterFetch w).pc.toNat = s.pc.toNat + 2 := by rw [State.afterFetch_pc]; bv_omega
    exact ((h.afterFetch w hpc).exec (by omega) (by omega) hexec).endCycle

end Sys2Proof.Machine

/-! PROOFS. The frames (R22 to R35), read off the effects of an instruction, and the timers of a running core. -/

namespace Sys2Proof.Machine

/-- Settles O47: of the effects of an instruction only `ExecEffect.regs` and `ExecEffect.screen` touch a register. -/
theorem registerFrame : Obligations.RegisterFrame := by
  intro i s t r hexec hr
  cases exec_effect hexec with
  | regs v hv => exact hv r hr
  | screen f v hi hv => exact hv r hr
  | _ => rfl

theorem exec_index {i : Instr} {s t : State} (h : exec i s = .next t) (hi : mayWriteIndex i = false) :
    t.index = s.index := by
  cases exec_effect h with
  | index w hw => simp [hw] at hi
  | _ => rfl

theorem exec_pc {i : Instr} {s t : State} (h : exec i s = .next t) (hi : mayWritePc i = false) : t.pc = s.pc := by
  cases exec_effect h with
  | pc w hw => simp [hw] at hi
  | called nnn hcall => simp [hcall, mayWritePc] at hi
  | returned hret => simp [hret, mayWritePc] at hi
  | _ => rfl

theorem exec_stack {i : Instr} {s t : State} (h : exec i s = .next t) (hi : mayWriteStack i = false) :
    t.stack = s.stack ∧ t.sp = s.sp := by
  cases exec_effect h with
  | called nnn hcall => simp [hcall, mayWriteStack] at hi
  | returned hret => simp [hret, mayWriteStack] at hi
  | _ => exact ⟨rfl, rfl⟩

theorem exec_fb {i : Instr} {s t : State} (h : exec i s = .next t) (hi : mayWriteFb i = false) : t.fb = s.fb := by
  cases exec_effect h with
  | screen f v hw => simp [hw] at hi
  | _ => rfl

theorem exec_dt {i : Instr} {s t : State} (h : exec i s = .next t) (hi : ∀ x, i ≠ .ldDT x) : t.dt = s.dt := by
  cases exec_effect h with
  | delay x hx => exact absurd hx (hi x)
  | _ => rfl

theorem exec_st {i : Instr} {s t : State} (h : exec i s = .next t) (hi : ∀ x, i ≠ .ldST x) : t.st = s.st := by
  cases exec_effect h with
  | sound x hx => exact absurd hx (hi x)
  | _ => rfl

theorem exec_ir {i : Instr} {s t : State} (h : exec i s = .next t) : t.ir = s.ir := by
  cases exec_effect h <;> rfl

/-- Settles O49: one frame for each piece of the state, and `State.SameHostFields` for the model's own. -/
theorem specialStateFrame : Obligations.SpecialStateFrame := by
  intro i s t h
  have hhost := State.SameHostFields.of_exec h
  exact ⟨exec_index h, exec_pc h, exec_stack h, exec_fb h, exec_dt h, exec_st h, exec_ir h, hhost.unknownPolicy,
    hhost.stackPolicy, hhost.inputs, hhost.cycle, hhost.loadable, hhost.started⟩

/-! ### What the end of a cycle leaves -/

@[simp] theorem State.endCycle_halted (s : State) : s.endCycle.halted = s.halted := by
  cases h : s.halted <;> simp [State.endCycle, h]

@[simp] theorem State.endCycle_v (s : State) : s.endCycle.v = s.v := by
  cases h : s.halted <;> simp [State.endCycle, h]

@[simp] theorem State.endCycle_pc (s : State) : s.endCycle.pc = s.pc := by
  cases h : s.halted <;> simp [State.endCycle, h]

@[simp] theorem State.endCycle_reg (s : State) (r : Reg) : s.endCycle.reg r = s.reg r := by
  simp only [State.reg, State.endCycle_v]

/-! ### The timers (R127, R128) -/

/-- A cycle that leaves the core running fetched a word, raised no fatal fault, and ticked (R126, R127). -/
theorem running_step_cases {s t : State} (hs : s.halted = false) (h : step s = .next t) (ht : t.halted = false) :
    ∃ w u, s.fetch = some w ∧ t = u.tick.nextInputs ∧
      ((decodeWord w = none ∧ u = (s.afterFetch w).raiseUnknownOpcode) ∨
        ∃ i, decodeWord w = some i ∧ exec i (s.afterFetch w) = .next u) := by
  obtain ⟨hhalt, -⟩ | ⟨-, -, rfl⟩ | ⟨w, -, hfetch, hdec, rfl⟩ | ⟨w, i, u, -, hfetch, hdec, hexec, rfl⟩ := step_cases h
  · simp [hs] at hhalt
  · simp [State.fetchFaultCycle, State.raiseFetchFault] at ht
  · refine ⟨w, _, hfetch, State.endCycle_of_running _ ?_, .inl ⟨hdec, rfl⟩⟩
    simpa [State.unknownCycle] using ht
  · exact ⟨w, u, hfetch, u.endCycle_of_running (by simpa using ht), .inr ⟨i, hdec, hexec⟩⟩

/-- Settles O12: before the tick a timer holds the register's value if the cycle's instruction writes the timer, and
else what it held. -/
theorem timersTickOncePerCycle : Obligations.TimersTickOncePerCycle := by
  intro s t hs hstep ht
  obtain ⟨w, u, hfetch, rfl, hu⟩ := running_step_cases hs hstep ht
  simp only [State.nextInputs_dt, State.nextInputs_st, State.tick_dt, State.tick_st, tickTimer_toNat]
  have hword {w'} (hw : s.fetch = some w') : w' = w := Option.some.inj (hw.symm.trans hfetch)
  obtain ⟨hdec, rfl⟩ | ⟨i, hdec, hexec⟩ := hu
  case inl =>
    have hnone {w' j} (hw : s.fetch = some w') : decodeWord w' ≠ some j := by simp [hword hw, hdec]
    exact ⟨fun _ _ hw hj => absurd hj (hnone hw), fun _ => rfl, fun _ _ hw hj => absurd hj (hnone hw), fun _ => rfl⟩
  case inr =>
    have hinstr {w' j} (hw : s.fetch = some w') (hj : decodeWord w' = some j) : i = j :=
      Option.some.inj (hdec.symm.trans (hword hw ▸ hj))
    refine ⟨fun _ x hw hj => ?delay, fun hno => ?delayKept, fun _ x hw hj => ?sound, fun hno => ?soundKept⟩
    case delay => cases hinstr hw hj; cases hexec; rfl
    case sound => cases hinstr hw hj; cases hexec; rfl
    case delayKept => rw [exec_dt hexec fun x hx => hno w x hfetch (hx ▸ hdec)]; rfl
    case soundKept => rw [exec_st hexec fun x hx => hno w x hfetch (hx ▸ hdec)]; rfl

theorem step_of_halted {s : State} (h : s.halted = true) : step s = .next s.haltedCycle := if_pos h

theorem haltedCycle_halted {s : State} (h : s.halted = true) : s.haltedCycle.halted = true :=
  (State.endCycle_halted _).trans h

/-- A core that runs after a cycle ran before it (R133). -/
theorem running_of_step {s t : State} (h : step s = .next t) (ht : t.halted = false) : s.halted = false := by
  by_contra hs
  rw [Bool.not_eq_false] at hs
  cases (step_of_halted hs).symm.trans h
  simp [haltedCycle_halted hs] at ht

/-- A core that runs after any number of cycles ran before them (R133). -/
theorem running_of_run {n : Nat} {s t : State} (h : core.run n s = .next t) (ht : t.halted = false) :
    s.halted = false := by
  induction n generalizing s with
  | zero => exact core_run_zero h ▸ ht
  | succ n ih =>
    obtain ⟨u, hstep, hrun⟩ := core_run_succ_next h
    exact running_of_step hstep (ih hrun)

theorem State.soundActive_iff (s : State) : s.soundActive = true ↔ 0 < s.st.toNat := by simp [State.soundActive]

/-- The sound timer's part of O13, by induction on the cycles: the first takes one off, the rest take `n` off. -/
theorem run_st {n : Nat} {s t : State} (h : core.run n s = .next t) (ht : t.halted = false)
    (hno : ∀ k u w x, k < n → core.run k s = .next u → u.fetch = some w → decodeWord w ≠ some (.ldST x)) :
    t.st.toNat = s.st.toNat - n := by
  induction n generalizing s with
  | zero => rw [core_run_zero h]; rfl
  | succ n ih =>
    obtain ⟨u, hstep, hrun⟩ := core_run_succ_next h
    have hu := running_of_run hrun ht
    obtain ⟨-, -, -, hst⟩ := timersTickOncePerCycle s u (running_of_step hstep hu) hstep hu
    have hfirst : u.st.toNat = s.st.toNat - 1 := hst fun w x => hno 0 s w x (by omega) rfl
    have hrest : t.st.toNat = u.st.toNat - n := ih hrun fun k v w x hk hv =>
      hno (k + 1) v w x (by omega) ((core_run_succ_of_next k hstep).trans hv)
    omega

/-- Settles O13. -/
theorem soundTimerCountsDown : Obligations.SoundTimerCountsDown := by
  intro n s t hrun ht hno
  have hst := run_st hrun ht hno
  rw [State.soundActive_iff]
  omega

end Sys2Proof.Machine

/-! PROOFS. The inputs of a cycle (R36, R37, R121): which instructions read them, and that a cycle reads the presented
ones. -/

namespace Sys2Proof.Machine

/-! ### Other inputs presented to the state -/

theorem State.raiseStackFault_present {s t : State} {k : FaultKind} (ins : List Input)
    (h : s.raiseStackFault k = .next t) : (s.present ins).raiseStackFault k = .next (t.present ins) := by
  obtain ⟨hp, h'⟩ | ⟨-, h'⟩ := s.raiseStackFault_cases k
  · cases h'.symm.trans h
    obtain ⟨-, h''⟩ | ⟨hp', -⟩ := (s.present ins).raiseStackFault_cases k
    · exact h''
    · cases hp.symm.trans hp'
  · cases h'.symm.trans h

theorem State.push_present (s : State) (w : Word) (ins : List Input) :
    (s.present ins).push w = (s.push w).map (·.present ins) := by
  obtain ⟨hsp, hpush⟩ | ⟨hsp, hpush⟩ := s.push_cases w
  · rw [hpush]; exact State.push_of_full (s.present ins) w hsp
  · rw [hpush]; exact State.push_of_lt (s.present ins) w hsp

theorem State.pop_present (s : State) (ins : List Input) :
    (s.present ins).pop = s.pop.map fun p => (p.1, p.2.present ins) := by
  obtain ⟨hsp, hpop⟩ | ⟨hsp, hpop⟩ := s.pop_cases
  · rw [hpop]; exact State.pop_of_empty (s.present ins) hsp
  · rw [hpop]; exact State.pop_of_pos (s.present ins) hsp

theorem State.storeBytes_present (s : State) (bytes : List Byte) (ins : List Input) :
    (s.present ins).storeBytes bytes = (s.storeBytes bytes).present ins := by
  have hcheck : storeCheck (addressSpan (s.present ins).index.toNat bytes.length) =
    storeCheck (addressSpan s.index.toNat bytes.length) := rfl
  unfold State.storeBytes
  rw [hcheck]
  split <;> rfl

theorem execCall_present {nnn : BitVec 12} {s t : State} (ins : List Input) (h : execCall nnn s = .next t) :
    execCall nnn (s.present ins) = .next (t.present ins) := by
  have hpc : (s.present ins).pc = s.pc := rfl
  unfold execCall at h ⊢
  rw [hpc, s.push_present]
  cases hpush : s.push s.pc with
  | none => rw [hpush] at h; exact State.raiseStackFault_present ins h
  | some u => rw [hpush] at h; cases h; rfl

theorem execRet_present {s t : State} (ins : List Input) (h : execRet s = .next t) :
    execRet (s.present ins) = .next (t.present ins) := by
  unfold execRet at h ⊢
  rw [s.pop_present]
  cases hpop : s.pop with
  | none => rw [hpop] at h; exact State.raiseStackFault_present ins h
  | some p => rw [hpop] at h; cases h; rfl

theorem execDraw_present {x y : Reg} {n : BitVec 4} {s t : State} (ins : List Input) (h : execDraw x y n s = .next t) :
    execDraw x y n (s.present ins) = .next (t.present ins) := by
  have hload : (s.present ins).loadBytes n.toNat = s.loadBytes n.toNat := rfl
  unfold execDraw at h ⊢
  rw [hload]
  split at h <;> cases h <;> rfl

theorem execLoadRegs_present {x : Reg} {s t : State} (ins : List Input) (h : execLoadRegs x s = .next t) :
    execLoadRegs x (s.present ins) = .next (t.present ins) := by
  have hload : (s.present ins).loadBytes x.val = s.loadBytes x.val := rfl
  unfold execLoadRegs at h ⊢
  rw [hload]
  split at h <;> obtain rfl := Host.Outcome.next.inj h <;> rfl

/-- Both key skips have this shape: a key index fault or a skip (R220, R222). -/
theorem raise_or_skipIf_present {s t : State} {p : Prop} [Decidable p] {k : FaultKind} {d : Option Nat} {c : Bool}
    (ins : List Input)
    (h : (if p then .next (s.raise k d) else .next (s.skipIf c) : Host.Outcome State Fault Refusal) = .next t) :
    (if p then .next ((s.present ins).raise k d) else .next ((s.present ins).skipIf c) :
      Host.Outcome State Fault Refusal) = .next (t.present ins) := by
  split at h
  · cases h; exact if_pos ‹p›
  · cases h; exact if_neg ‹¬p›

section KeyInput

variable {x : Reg} {s t : State} {ins : List Input} (hkeys : (s.present ins).input.keys = s.input.keys)
include hkeys

theorem State.key_present (k : Nat) : (s.present ins).key k = s.key k := by simp only [State.key, hkeys]

theorem execSkp_present (h : execSkp x s = .next t) : execSkp x (s.present ins) = .next (t.present ins) := by
  rw [execSkp, State.key_present hkeys]
  exact raise_or_skipIf_present ins h

theorem execSknp_present (h : execSknp x s = .next t) : execSknp x (s.present ins) = .next (t.present ins) := by
  rw [execSknp, State.key_present hkeys]
  exact raise_or_skipIf_present ins h

theorem execLdVxK_present (h : execLdVxK x s = .next t) : execLdVxK x (s.present ins) = .next (t.present ins) := by
  obtain rfl := Host.Outcome.next.inj h
  unfold execLdVxK
  rw [hkeys]
  split <;> rfl

end KeyInput

/-- Settles O16: only the three key instructions and `Cxkk` name the cycle's input; every other update commutes with
presenting other inputs. -/
theorem otherInputsDoNotMatter : Obligations.OtherInputsDoNotMatter := by
  intro i s t ins hkeys hrnd h
  cases i with
  | call nnn => exact execCall_present ins h
  | ret => exact execRet_present ins h
  | draw x y n => exact execDraw_present ins h
  | loadRegs x => exact execLoadRegs_present ins h
  | ldB x => cases h; exact congrArg _ (s.storeBytes_present _ ins)
  | storeRegs x => cases h; exact congrArg _ (s.storeBytes_present _ ins)
  | skp x => exact execSkp_present (hkeys rfl) h
  | sknp x => exact execSknp_present (hkeys rfl) h
  | ldVxK x => exact execLdVxK_present (hkeys rfl) h
  | rnd x kk =>
    cases h
    exact congrArg (fun b => Host.Outcome.next ((s.present ins).setReg x (b &&& kk))) (hrnd rfl)
  | _ => cases h; rfl

/-! ### The presented input -/

theorem State.input_of_cons {s : State} {i : Input} {rest : List Input} (h : s.inputs = i :: rest) : s.input = i := by
  simp [State.input, h]

theorem State.input_of_nil {s : State} (h : s.inputs = []) :
    s.input = ⟨Config.freeKeys s.cycle, Config.freeRnd s.cycle⟩ := by
  simp [State.input, h]

/-- A cycle of a running core on a word that decodes runs the instruction (R120). -/
theorem step_of_decoded {s : State} {w : Word} {i : Instr} (hs : s.halted = false) (hfetch : s.fetch = some w)
    (hdec : decodeWord w = some i) : step s = finishCycle (exec i (s.afterFetch w)) := by
  simp [step, hs, hfetch, hdec]

/-- As `step_of_decoded`, where the instruction answers a next state. -/
theorem step_of_exec {s u : State} {w : Word} {i : Instr} (hs : s.halted = false) (hfetch : s.fetch = some w)
    (hdec : decodeWord w = some i) (hexec : exec i (s.afterFetch w) = .next u) : step s = .next u.endCycle :=
  (step_of_decoded hs hfetch hdec).trans (congrArg finishCycle hexec)

/-- The smallest key held, if one is (R224). -/
theorem lowestKey_spec {keys : BitVec 16} (h : keys ≠ 0) :
    lowestKey keys < 16 ∧ keys.getLsbD (lowestKey keys) = true ∧ ∀ j < lowestKey keys, keys.getLsbD j = false := by
  unfold lowestKey
  cases hfind : (List.range 16).find? fun k => keys.getLsbD k with
  | none =>
    refine absurd (BitVec.eq_of_getLsbD_eq fun k hk => ?_) h
    simpa using List.find?_eq_none.mp hfind k (List.mem_range.mpr hk)
  | some k =>
    obtain ⟨hk, hmem, hlt⟩ := List.find?_range_eq_some.mp hfind
    exact ⟨List.mem_range.mp hmem, hk, fun j hj => by simpa using hlt j hj⟩

theorem execLdVxK_of_no_key {x : Reg} {s : State} (h : s.input.keys = 0) :
    execLdVxK x s = .next (s.setPc (s.pc - 2)) := congrArg _ (if_pos h)

theorem execLdVxK_of_key {x : Reg} {s : State} (h : s.input.keys ≠ 0) :
    execLdVxK x s = .next (s.setReg x (BitVec.ofNat 8 (lowestKey s.input.keys))) := congrArg _ (if_neg h)

section PresentedInput

variable {s : State} {i : Input} {rest : List Input} {w : Word} {x : Reg}
  (hin : s.inputs = i :: rest) (hs : s.halted = false) (hfetch : s.fetch = some w)
include hin hs hfetch

theorem step_rnd_presented {kk : Byte} (hdec : decodeWord w = some (.rnd x kk)) :
    ∃ t, step s = .next t ∧ t.reg x = i.rnd &&& kk ∧ t.inputs = rest := by
  refine ⟨_, step_of_exec hs hfetch hdec rfl, ?_, ?_⟩
  · simp [State.input_of_cons hin]
  · simp [hin]

theorem step_skp_presented (hdec : decodeWord w = some (.skp x)) (hx : (s.reg x).toNat ≤ 15) :
    ∃ t, step s = .next t ∧ t.pc = (if i.keys.getLsbD (s.reg x).toNat then s.pc + 4 else s.pc + 2) ∧
      t.inputs = rest := by
  have hexec : exec (.skp x) (s.afterFetch w) = .next ((s.afterFetch w).skipIf (s.key (s.reg x).toNat)) :=
    if_neg (Nat.not_lt.mpr hx)
  refine ⟨_, step_of_exec hs hfetch hdec hexec, ?_, ?_⟩
  · simp [State.key, State.input_of_cons hin, BitVec.add_assoc]
  · simp [hin]

theorem step_sknp_presented (hdec : decodeWord w = some (.sknp x)) (hx : (s.reg x).toNat ≤ 15) :
    ∃ t, step s = .next t ∧ t.pc = (if i.keys.getLsbD (s.reg x).toNat then s.pc + 2 else s.pc + 4) ∧
      t.inputs = rest := by
  have hexec : exec (.sknp x) (s.afterFetch w) = .next ((s.afterFetch w).skipIf (!s.key (s.reg x).toNat)) :=
    if_neg (Nat.not_lt.mpr hx)
  refine ⟨_, step_of_exec hs hfetch hdec hexec, ?_, ?_⟩
  · cases hkey : i.keys.getLsbD (s.reg x).toNat <;> simp [State.key, State.input_of_cons hin, hkey, BitVec.add_assoc]
  · simp [hin]

theorem step_ldVxK_presented (hdec : decodeWord w = some (.ldVxK x)) :
    ∃ t, step s = .next t ∧ t.inputs = rest ∧
      (i.keys = 0 → t.pc = s.pc ∧ t.v = s.v) ∧
      (i.keys ≠ 0 → t.pc = s.pc + 2 ∧ (t.reg x).toNat < 16 ∧ i.keys.getLsbD (t.reg x).toNat = true ∧
        ∀ j, j < (t.reg x).toNat → i.keys.getLsbD j = false) := by
  obtain rfl : s.input = i := State.input_of_cons hin
  by_cases hk : s.input.keys = 0
  case pos =>
    refine ⟨_, step_of_exec hs hfetch hdec (execLdVxK_of_no_key (s := s.afterFetch w) hk), ?_, ?_, absurd hk⟩
    · simp [hin]
    · simp
  case neg =>
    refine ⟨_, step_of_exec hs hfetch hdec (execLdVxK_of_key (s := s.afterFetch w) hk), ?_,
      fun h => absurd h hk, fun _ => ?_⟩
    · simp [hin]
    · obtain ⟨hlt, hset, hmin⟩ := lowestKey_spec hk
      have hmod : lowestKey s.input.keys % 256 = lowestKey s.input.keys := Nat.mod_eq_of_lt (by omega)
      simpa [hmod, hlt, hset] using hmin

end PresentedInput

/-- Settles O59: the fetch leaves the input, and each of the four instructions acts on it. -/
theorem cycleReadsPresentedInput : Obligations.CycleReadsPresentedInput :=
  ⟨fun s _ _ w _ _ hin hs hfetch =>
    ⟨State.input_of_cons hin, ((s.afterFetch_input w).trans (State.input_of_cons hin) : (s.afterFetch w).input = _),
      step_rnd_presented hin hs hfetch, step_skp_presented hin hs hfetch, step_sknp_presented hin hs hfetch,
      step_ldVxK_presented hin hs hfetch⟩,
    fun _ => State.input_of_nil⟩

end Sys2Proof.Machine

/-! PROOFS. Two instructions that read an input or write `I`, the state after reset, and the outputs. -/

namespace Sys2Proof.Machine

/-- Settles O27: the byte written is the conjunction of the cycle's byte and the mask, bit by bit. -/
theorem randomByteIsMasked : Obligations.RandomByteIsMasked := by
  intro x kk s
  refine ⟨s.setReg x (s.input.rnd &&& kk), rfl, fun r k => ?_, rfl⟩
  rw [State.setReg_reg]
  split
  · exact BitVec.getLsbD_and
  · rfl

/-- Settles O29. -/
theorem indexAddWraps : Obligations.IndexAddWraps := fun x s =>
  ⟨s.setIndex (indexSum s.index (s.reg x)), rfl, indexSum_toNat s.index (s.reg x), rfl⟩

/-! ### Reset (R42, R280) -/

/-- Above the font an unlisted address reads as 0 (R42). -/
theorem Memory.initial_of_font_le {a : Nat} (h : Config.fontSize ≤ a) : Memory.initial a = 0 :=
  List.getD_eq_default fontTable 0 h

@[simp] theorem State.reset_reg (r : Reg) : State.reset.reg r = 0 := Vector.getElem_replicate _

@[simp] theorem State.reset_stack_getElem (k : Fin 16) : State.reset.stack[k.val] = 0 := Vector.getElem_replicate _

@[simp] theorem State.reset_cell (p : FbCell) : State.reset.fb.cell p = false := by
  simp [State.reset, Framebuffer.cell]

/-- Settles O52. -/
theorem resetValues : Obligations.ResetValues :=
  ⟨rfl, State.reset_reg, rfl, rfl, State.reset_stack_getElem, rfl, rfl, State.reset_cell, rfl, rfl, rfl, rfl,
    by decide, fun _ => Memory.initial_of_font_le⟩

/-- Settles O53. -/
theorem resetMeetsInvariant : Obligations.ResetMeetsInvariant where
  memWf := State.reset_mem_wf
  font _ _ := rfl
  indexRange := by decide
  pcRange := by decide
  stackRange k := by simp
  haltedRecord := nofun
  noRecord _ := ⟨rfl, rfl⟩
  loadWindow _ := rfl

/-- Settles O55: the host's reset is `State.reset` but for the parameters and the model's own inputs and cycle number. -/
theorem hostResetRestores : Obligations.HostResetRestores := fun _ =>
  ⟨⟨rfl, rfl, rfl, rfl, rfl, rfl, rfl, rfl, rfl, rfl, rfl, rfl, rfl⟩, rfl, rfl, rfl, rfl,
    { resetMeetsInvariant with haltedRecord := nofun }⟩

/-! ### Outputs (R131, R240) -/

theorem FaultKind.code_ne_zero (k : FaultKind) : k.code ≠ 0 := by cases k <;> decide

theorem FaultKind.code_injective : Function.Injective FaultKind.code := by
  intro j k
  cases j <;> cases k <;> decide

theorem State.faultCodeOut_eq_zero_iff (s : State) : s.faultCodeOut = 0 ↔ s.faultCode = none := by
  unfold State.faultCodeOut
  cases s.faultCode with
  | none => simp
  | some k => exact iff_of_false k.code_ne_zero nofun

theorem State.faultCodeOut_eq_code_iff (s : State) (k : FaultKind) : s.faultCodeOut = k.code ↔ s.faultCode = some k := by
  unfold State.faultCodeOut
  cases s.faultCode with
  | none => exact iff_of_false k.code_ne_zero.symm nofun
  | some j => simp [FaultKind.code_injective.eq_iff]

/-- Settles O58: the code tells the fault kinds apart, and 0 is none of them. -/
theorem outputsOfState : Obligations.OutputsOfState := fun s =>
  ⟨s.faultCodeOut_eq_zero_iff, s.faultCodeOut_eq_code_iff .unknownOpcode, s.faultCodeOut_eq_code_iff .stackOverflow,
    s.faultCodeOut_eq_code_iff .stackUnderflow, s.faultCodeOut_eq_code_iff .addressOutOfRange,
    s.faultCodeOut_eq_code_iff .fontWriteProtect, s.faultCodeOut_eq_code_iff .keyIndexOutOfRange,
    s.soundActive_iff.trans (s.st.toNat_pos.trans s.st.pos_iff_ne_zero)⟩

end Sys2Proof.Machine

/-! PROOFS. Instructions as bytes (R63, R90). -/

namespace Sys2Proof

/-- The word of an instruction decodes to it: the high nibble selects the group, and the fields of the format give back
the operands (R92, R95). -/
theorem decodeWord_encode (i : Instr) : decodeWord (encode i) = some i := by
  cases i with
  | cls | ret => rfl
  | jump | call | ldI | jumpV0 | seImm | sneImm | ldImm | addImm | rnd | seReg | sneReg | draw =>
    simp [encode, decodeWord]
  | ldReg | orReg | andReg | xorReg | addReg | subReg | shr | subnReg | shl => simp [encode, decodeWord, decodeGroup8]
  | skp | sknp => simp [encode, decodeWord, decodeGroupE]
  | ldVxDT | ldVxK | ldDT | ldST | addI | ldF | ldB | storeRegs | loadRegs => simp [encode, decodeWord, decodeGroupF]

theorem decode_of_decodeWord {hi lo : Byte} {i : Instr} (rest : List Byte)
    (h : decodeWord (wordOfBytes hi lo) = some i) : decode (hi :: lo :: rest) = .ok (i, rest) := by
  simp [decode, h]

/-- Settles O6: the two bytes make up the word again, and that decodes. -/
theorem bytesOfInstruction : Obligations.BytesOfInstruction := fun i rest =>
  ⟨rfl, decode_of_decodeWord rest (by rw [wordOfBytes_bytes, decodeWord_encode])⟩

end Sys2Proof

/-! PROOFS. The memory of an instruction and of a cycle (R60 to R84): what a store and a load do when they are inside
their bounds and when they are not, and that no cycle writes the font. -/

namespace Sys2Proof.Machine

/-! ### What no instruction and no cycle writes -/

/-- Settles O48: of the effects of an instruction only `ExecEffect.stored` touches the memory. -/
theorem memoryFrame : Obligations.MemoryFrame := by
  intro i s t hexec a ha
  cases exec_effect hexec with
  | stored bytes hi hb =>
    rw [hi, mem_addressSpan] at ha
    exact Memory.read_writeBlock_other _ _ _ _ (by omega)
  | _ => rfl

/-- A store that passed `StoreCheck` starts above the font (R68, R69). -/
theorem exec_font {i : Instr} {s t : State} (h : exec i s = .next t) {a : Nat} (ha : a < Config.fontSize) :
    t.mem.read a = s.mem.read a := by
  cases exec_effect h with
  | stored bytes hi hb => exact Memory.read_writeBlock_other _ _ _ _ (by omega)
  | _ => rfl

@[simp] theorem State.endCycle_mem (s : State) : s.endCycle.mem = s.mem := by
  cases h : s.halted <;> simp [State.endCycle, h]

/-- Settles O51: a cycle writes the memory by its instruction only. -/
theorem fontIsImmutable : Obligations.FontIsImmutable := by
  intro s t hstep a ha
  obtain ⟨-, rfl⟩ | ⟨-, -, rfl⟩ | ⟨w, -, -, -, rfl⟩ | ⟨w, i, u, -, -, -, hexec, rfl⟩ := step_cases hstep
  · rw [State.haltedCycle, State.endCycle_mem]
  · rw [State.fetchFaultCycle, State.endCycle_mem]; rfl
  · rw [State.unknownCycle, State.endCycle_mem]; rfl
  · rw [State.endCycle_mem]
    exact exec_font hexec ha

/-! ### A store of bytes (R68) -/

theorem addressSpan_eq_map (base count : Nat) : addressSpan base count = (List.range count).map fun k => base + k := by
  rw [addressSpan, List.range'_eq_map_range]

/-- A fatal fault written out (R244, R252). -/
theorem State.raise_eq (s : State) (k : FaultKind) (d : Option Nat) :
    s.raise k d = { s with
      faultCode := some k, faultPc := s.pc - 2, halted := true, report := some ⟨k, s.pc - 2, s.ir, d⟩ } := by
  simp [State.raise, State.recordFault]

/-- `count` bytes at `I` are a store that `StoreCheck` passes (`storeCheck_none`; R68). -/
abbrev State.StoreInside (s : State) (count : Nat) : Prop :=
  count = 0 ∨ (Config.fontSize ≤ s.index.toNat ∧ s.index.toNat + count ≤ Config.memSize)

section Store

variable {s : State} {bytes : List Byte}

theorem State.storeBytes_of_outOfRange (hpos : 0 < bytes.length)
    (h : Config.memSize < s.index.toNat + bytes.length) :
    s.storeBytes bytes = s.raise .addressOutOfRange (some (max s.index.toNat Config.memSize)) := by
  simp [State.storeBytes, storeCheck_outOfRange _ _ hpos h]

theorem State.storeBytes_of_font (hpos : 0 < bytes.length) (h : s.index.toNat < Config.fontSize)
    (hend : s.index.toNat + bytes.length ≤ Config.memSize) :
    s.storeBytes bytes = s.raise .fontWriteProtect (some s.index.toNat) := by
  simp [State.storeBytes, storeCheck_font _ _ hpos h hend]

variable (hb : s.StoreInside bytes.length)
include hb

theorem State.storeBytes_of_inside : s.storeBytes bytes = s.setMem (s.mem.writeBlock s.index.toNat bytes) := by
  simp [State.storeBytes, (storeCheck_none _ _).mpr hb]

theorem State.storeBytes_frame : s.storeBytes bytes = { s with mem := (s.storeBytes bytes).mem } := by
  rw [State.storeBytes_of_inside hb]
  rfl

theorem State.storeBytes_wf (hwf : s.mem.wf) : (s.storeBytes bytes).mem.wf := by
  rw [State.storeBytes_of_inside hb, State.setMem_mem]
  obtain h0 | ⟨-, hend⟩ := hb
  · rw [List.length_eq_zero_iff.mp h0]
    exact hwf
  · exact Memory.writeBlock_wf _ _ _ hend hwf

theorem State.storeBytes_read (hwf : s.mem.wf) {k : Nat} {b : Byte} (hk : bytes[k]? = some b) :
    (s.storeBytes bytes).mem.read (s.index.toNat + k) = b := by
  obtain ⟨hlt, rfl⟩ := List.getElem?_eq_some_iff.mp hk
  rw [State.storeBytes_of_inside hb, State.setMem_mem]
  exact Memory.read_writeBlock_same _ _ _ k hlt (by omega) hwf

end Store

/-! ### Fx33 and Fx55 -/

/-- Settles O30: `Fx33` is a store of the three digits. -/
theorem bcdStoresDigits : Obligations.BcdStoresDigits := by
  intro x s hwf hlo hhi
  have hb : s.StoreInside (bcdDigits (s.reg x)).length := .inr ⟨hlo, Nat.succ_le_succ hhi⟩
  have hdigit {k n : Nat} (hk : (bcdDigits (s.reg x))[k]? = some (BitVec.ofNat 8 n)) (hn : n < 256) :
      ((s.storeBytes (bcdDigits (s.reg x))).mem.read (s.index.toNat + k)).toNat = n := by
    rw [State.storeBytes_read hb hwf hk, BitVec.toNat_ofNat, Nat.mod_eq_of_lt hn]
  exact ⟨_, rfl, hdigit (k := 0) rfl (by omega), hdigit (k := 1) rfl (by omega), hdigit (k := 2) rfl (by omega), rfl,
    memoryFrame (.ldB x) s _ rfl, State.storeBytes_wf hb hwf, State.storeBytes_frame hb⟩

theorem State.lowRegs_length_reg (s : State) (x : Reg) : (s.lowRegs x.val).length = x.val :=
  s.lowRegs_length x.val (by omega)

/-- Settles O31: `Fx55` is a store of the low registers. -/
theorem blockStore : Obligations.BlockStore := by
  intro x s hwf hx
  have hlen := s.lowRegs_length_reg x
  have hb : s.StoreInside (s.lowRegs x.val).length := by rw [hlen]; exact hx
  refine ⟨_, rfl, fun r hr => ?stored, ?addresses, memoryFrame (.storeRegs x) s _ rfl, State.storeBytes_wf hb hwf,
    State.storeBytes_frame hb⟩
  case stored => exact State.storeBytes_read hb hwf (s.lowRegs_getElem x.val r.val hr (by omega))
  case addresses => rw [storeAddresses, hlen, addressSpan_eq_map]

/-- Both storing instructions hand at most 15 bytes to `State.storeBytes` (R196, R198). -/
theorem exec_eq_storeBytes {x : Reg} {s : State} {i : Instr} {n : Nat}
    (h : (i = .ldB x ∧ n = 3) ∨ (i = .storeRegs x ∧ n = x.val)) :
    ∃ bytes, bytes.length = n ∧ n ≤ 15 ∧ exec i s = .next (s.storeBytes bytes) := by
  obtain ⟨rfl, rfl⟩ | ⟨rfl, rfl⟩ := h
  · exact ⟨bcdDigits (s.reg x), rfl, by omega, rfl⟩
  · exact ⟨s.lowRegs x.val, s.lowRegs_length_reg x, by omega, rfl⟩

/-- Settles O33: 15 bytes that start in the font end inside `mem`, so the two faults do not meet. -/
theorem storeFaults : Obligations.StoreFaults := by
  intro x s i n hi hpos
  obtain ⟨bytes, rfl, hn, hexec⟩ := exec_eq_storeBytes (s := s) hi
  rw [hexec]
  refine ⟨fun hend => ?outOfRange, fun hfont => ?inFont⟩
  case outOfRange => rw [State.storeBytes_of_outOfRange hpos hend, State.raise_eq]; rfl
  case inFont => rw [State.storeBytes_of_font hpos hfont (by simp only [Config.memSize]; omega), State.raise_eq]

/-! ### Fx65 and Dxyn -/

theorem State.loadBytes_of_inside {s : State} {count : Nat} (h : count = 0 ∨ s.index.toNat + count ≤ Config.memSize) :
    s.loadBytes count = .ok ((addressSpan s.index.toNat count).map fun a => s.mem.read a) :=
  Memory.readBlock_ok _ _ _ h

theorem State.loadBytes_of_outOfRange {s : State} {count : Nat} (hpos : 0 < count)
    (h : Config.memSize < s.index.toNat + count) :
    s.loadBytes count = .error (max s.index.toNat Config.memSize) :=
  Memory.readBlock_error _ _ _ hpos h

theorem execLoadRegs_of_ok {x : Reg} {s : State} {bytes : List Byte} (h : s.loadBytes x.val = .ok bytes) :
    execLoadRegs x s = .next (s.setLowRegs bytes) := by
  rw [execLoadRegs, h]

theorem execLoadRegs_of_error {x : Reg} {s : State} {a : Nat} (h : s.loadBytes x.val = .error a) :
    execLoadRegs x s = .next (s.raise .addressOutOfRange (some a)) := by
  rw [execLoadRegs, h]

theorem execDraw_of_error {x y : Reg} {n : BitVec 4} {s : State} {a : Nat} (h : s.loadBytes n.toNat = .error a) :
    execDraw x y n s = .next (s.raise .addressOutOfRange (some a)) := by
  rw [execDraw, h]

/-- The `k`-th of the bytes at a span, or the default past its end. -/
theorem addressSpan_map_getD (base count : Nat) (f : Nat → Byte) (k : Nat) (d : Byte) :
    ((addressSpan base count).map f).getD k d = if k < count then f (base + k) else d := by
  split
  next hk => simp [addressSpan_getElem? base count k hk]
  next hk => exact List.getD_eq_default _ _ (by simpa using hk)

/-- Settles O32: the bytes loaded are those of the span at `I`. -/
theorem blockLoad : Obligations.BlockLoad := fun _ s hx =>
  ⟨_, execLoadRegs_of_ok (State.loadBytes_of_inside hx),
    fun r => (s.setLowRegs_reg _ r).trans (addressSpan_map_getD _ _ _ _ _), rfl⟩

/-- Settles O34. -/
theorem readFaults : Obligations.ReadFaults := by
  intro x y m s i n hi hpos hend
  have hload := State.loadBytes_of_outOfRange hpos hend
  have hexec : exec i s = .next (s.raise .addressOutOfRange (some (max s.index.toNat Config.memSize))) := by
    obtain ⟨rfl, rfl⟩ | ⟨rfl, rfl⟩ := hi
    · exact execLoadRegs_of_error hload
    · exact execDraw_of_error hload
  rw [hexec, State.raise_eq]
  rfl

/-! ### What a store left is what is read -/

/-- `Fx55` leaves the low registers in memory, in any state it can go on to (R198). -/
theorem read_of_storeRegs {x : Reg} {s t : State} (hwf : s.mem.wf) (hlo : 80 ≤ s.index.toNat)
    (hhi : s.index.toNat + x.val ≤ 0x1000) (h : exec (.storeRegs x) s = .next t) {r : Reg} (hr : r.val < x.val) :
    t.mem.read (s.index.toNat + r.val) = s.reg r := by
  obtain ⟨t', h', hread, -⟩ := blockStore x s hwf (.inr ⟨hlo, hhi⟩)
  cases h'.symm.trans h
  exact hread r hr

/-- Settles O35: `Fx65` reads the bytes that `Fx55` stored. -/
theorem storeThenLoad : Obligations.StoreThenLoad := by
  intro x s t u hwf hlo hhi hstore hmem hindex
  obtain ⟨w, hload, hreg, -⟩ := blockLoad x u (.inr (hindex ▸ hhi))
  refine ⟨w, hload, fun r => ?_⟩
  rw [hreg r, hmem, hindex]
  split
  next hr => exact read_of_storeRegs hwf hlo hhi hstore hr
  next => rfl

/-- Settles O37: the fetch reads the two bytes that `F255` stored. -/
theorem fetchSeesStore : Obligations.FetchSeesStore := by
  intro s t u hwf hlo hhi hstore hmem hpc
  have hread {r : Reg} := read_of_storeRegs (r := r) hwf hlo (Nat.add_le_add_right hhi 2) hstore
  have hfirst : t.mem.read s.index.toNat = s.reg 0 := hread (r := 0) (by decide)
  have hsecond : t.mem.read (s.index.toNat + 1) = s.reg 1 := hread (r := 1) (by decide)
  obtain ⟨hout, -⟩ | ⟨-, hfetch⟩ := u.fetch_cases
  · rw [hpc] at hout
    omega
  · refine ⟨_, hfetch, ?_⟩
    rw [wordOfBytes_toNat, hmem, hpc, hfirst, hsecond]
    omega

/-! ### A fetch outside the memory (R67, R250) -/

/-- Where the fetch faults, the first address above 0x0FFF is `pc` itself but at 0x0FFF. -/
theorem State.fetchFaultAddress_eq {s : State} (h : 0x0FFE < s.pc.toNat) :
    s.fetchFaultAddress = if s.pc = 0x0FFF then 0x1000 else s.pc.toNat := by
  unfold State.fetchFaultAddress
  by_cases hpc : s.pc = 0x0FFF
  · simp [hpc]
  · rw [if_pos (by bv_omega), if_neg hpc]

@[simp] theorem State.raiseFetchFault_halted (s : State) : s.raiseFetchFault.halted = true := Bool.or_true _

theorem State.fetch_of_outOfRange {s : State} (hpc : 0x0FFE < s.pc.toNat) : s.fetch = none := if_pos hpc

theorem step_of_fetch_fault {s : State} (hs : s.halted = false) (hfetch : s.fetch = none) :
    step s = .next s.raiseFetchFault.nextInputs := by
  simp [step, hs, hfetch, State.fetchFaultCycle, State.endCycle_of_halted]

/-- Settles O9: the fault halts the core, so the cycle ends without a tick. -/
theorem fetchFaultCycle : Obligations.FetchFaultCycle := by
  intro s hs hpc
  rw [← State.fetchFaultAddress_eq hpc]
  exact ⟨_, step_of_fetch_fault hs (State.fetch_of_outOfRange hpc), rfl, rfl, s.raiseFetchFault_halted, rfl, rfl, rfl,
    rfl, rfl, rfl, rfl, rfl, rfl, rfl, rfl⟩

/-! ### Load (R75 to R77) -/

theorem State.load_of_closed {s : State} (program : List Byte) (h : s.loadable = false) :
    s.load program = .refused .loadOutsideWindow := by
  simpa [h] using s.load_cases program

theorem State.load_of_tooLarge {s : State} {program : List Byte} (h : s.loadable = true)
    (hlen : Config.maxProgram < program.length) : s.load program = .programTooLarge := by
  simpa [h, hlen, hlen.not_ge] using s.load_cases program

theorem State.load_of_fits {s : State} {program : List Byte} (h : s.loadable = true)
    (hlen : program.length ≤ Config.maxProgram) :
    s.load program = .loaded
      { s with mem := s.mem.writeBlock Config.programBase program, loadable := false } := by
  simpa [h, hlen, hlen.not_gt] using s.load_cases program

/-- Settles O56: `Load` is a block write at 0x200, and 3584 bytes from there end where `mem` ends. -/
theorem loadCopiesProgram : Obligations.LoadCopiesProgram := by
  intro s program hopen hwf
  refine ⟨fun hlen => ?_, State.load_of_tooLarge hopen⟩
  have hend : Config.programBase + program.length ≤ Config.memSize := Nat.add_le_add_left hlen 0x200
  exact ⟨_, State.load_of_fits hopen hlen, fun k hk => Memory.read_writeBlock_same _ _ _ k hk hend hwf,
    Memory.read_writeBlock_other _ _ _, Memory.writeBlock_wf _ _ _ hend hwf, rfl⟩

theorem step_loadable {s t : State} (h : step s = .next t) : t.loadable = false := by
  obtain ⟨u, -, rfl⟩ := step_eq_endCycle h
  exact u.endCycle_loadable

/-- Settles O57: a load and the end of a cycle both close the window. -/
theorem loadOnlyBeforeFirstCycle : Obligations.LoadOnlyBeforeFirstCycle := by
  refine ⟨fun _ => State.load_of_closed, fun _ _ => step_loadable, fun s t program h => ?_⟩
  rw [State.load_eq_loaded h]

end Sys2Proof.Machine

/-! PROOFS. The encoding (R91 to R98): a word is its fields laid out again, so what decodes is an encoding; and which bits
of a word the decoder reads, so which words are an instruction's and which are unknown. -/

namespace Sys2Proof

/-! ### Every instruction is well formed, and its word decodes to it -/

@[simp] theorem Operand.regOk_val (r : Reg) : Operand.regOk r.val = true := by simp [Operand.regOk]

@[simp] theorem Operand.addrOk_toNat (nnn : BitVec 12) : Operand.addrOk nnn.toNat = true := by
  simpa [Operand.addrOk] using nnn.isLt

@[simp] theorem Operand.byteOk_toNat (kk : Byte) : Operand.byteOk kk.toNat = true := by
  simpa [Operand.byteOk] using kk.isLt

@[simp] theorem Operand.nibbleOk_toNat (n : BitVec 4) : Operand.nibbleOk n.toNat = true := by
  simpa [Operand.nibbleOk] using n.isLt

/-- The operand types have exactly the admitted values (R111). -/
theorem Instr.wellFormed_eq_true (i : Instr) : i.wellFormed = true := by
  cases i <;> simp [Instr.wellFormed]

/-- Settles O1: the operand types have no other values, and the fields of each format give the operands back. -/
theorem decodeOfEncode : Obligations.DecodeOfEncode := fun i => ⟨i.wellFormed_eq_true, decodeWord_encode i⟩

/-! ### A word is its fields laid out again (R92) -/

section Fields

variable {w : Word} {a n : BitVec 4} {kk : Byte}

theorem encNNN_fields (ha : (fieldOp4 w).toNat = a.toNat) : encNNN a (fieldNnn w) = w := by
  apply BitVec.eq_of_toNat_eq
  rw [encNNN_toNat, ← ha, fieldOp4_toNat, fieldNnn_toNat]
  omega

theorem encXKK_fields (ha : (fieldOp4 w).toNat = a.toNat) (hk : (fieldKk w).toNat = kk.toNat) :
    encXKK a (fieldX w) kk = w := by
  apply BitVec.eq_of_toNat_eq
  rw [encXKK_toNat, ← ha, ← hk, fieldOp4_toNat, fieldX_val, fieldKk_toNat]
  omega

theorem encXYN_fields (ha : (fieldOp4 w).toNat = a.toNat) (hn : (fieldN w).toNat = n.toNat) :
    encXYN a (fieldX w) (fieldY w) n = w := by
  apply BitVec.eq_of_toNat_eq
  rw [encXYN_toNat, ← ha, ← hn, fieldOp4_toNat, fieldX_val, fieldY_val, fieldN_toNat]
  omega

end Fields

/-! ### What decodes is an encoding, group by group (R94) -/

section Groups

variable {w : Word} {i : Instr}

theorem encode_of_decodeGroup0 (h : decodeGroup0 w = some i) : encode i = w := by
  unfold decodeGroup0 at h
  split at h <;> cases h
  case h_1 hw | h_2 hw => exact BitVec.eq_of_toNat_eq hw.symm

theorem encode_of_decodeGroup8 (hop : (fieldOp4 w).toNat = 8) (h : decodeGroup8 w = some i) : encode i = w := by
  unfold decodeGroup8 at h
  split at h <;> cases h <;> exact encXYN_fields hop ‹(fieldN w).toNat = _›

theorem encode_of_decodeGroupE (hop : (fieldOp4 w).toNat = 0xE) (h : decodeGroupE w = some i) : encode i = w := by
  unfold decodeGroupE at h
  split at h <;> cases h <;> exact encXKK_fields hop ‹(fieldKk w).toNat = _›

theorem encode_of_decodeGroupF (hop : (fieldOp4 w).toNat = 0xF) (h : decodeGroupF w = some i) : encode i = w := by
  unfold decodeGroupF at h
  split at h <;> cases h <;> exact encXKK_fields hop ‹(fieldKk w).toNat = _›

/-- A group keeps the fixed bits of a word, and its instruction every field. -/
theorem encode_of_decodeWord (h : decodeWord w = some i) : encode i = w := by
  unfold decodeWord at h
  split at h
  case h_1 => exact encode_of_decodeGroup0 h
  case h_2 hop | h_3 hop | h_11 hop | h_12 hop => cases h; exact encNNN_fields hop
  case h_4 hop | h_5 hop | h_7 hop | h_8 hop | h_13 hop => cases h; exact encXKK_fields hop rfl
  case h_6 hop | h_10 hop =>
    split at h
    case isTrue hn => cases h; exact encXYN_fields hop (congrArg BitVec.toNat hn)
    case isFalse => cases h
  case h_9 hop => exact encode_of_decodeGroup8 hop h
  case h_14 hop => cases h; exact encXYN_fields hop rfl
  case h_15 hop => exact encode_of_decodeGroupE hop h
  case h_16 hop => exact encode_of_decodeGroupF hop h
  case h_17 => cases h

end Groups

/-- Settles O2: the decoder keeps every bit of the word, fixed or in a field. -/
theorem encodeOfDecode : Obligations.EncodeOfDecode := fun _ _ => encode_of_decodeWord

/-! ### The unknown words, group by group (R98) -/

section Unknown

variable (w : Word)

theorem decodeGroup0_eq_none_iff : decodeGroup0 w = none ↔ w.toNat ≠ 0x00E0 ∧ w.toNat ≠ 0x00EE := by
  unfold decodeGroup0
  split <;> simp_all

/-- The nibbles that `decodeGroup8` does not list are those of the table, since a nibble is below 16. -/
theorem decodeGroup8_eq_none_iff :
    decodeGroup8 w = none ↔ w.toNat % 0x10 ∈ [0x8, 0x9, 0xA, 0xB, 0xC, 0xD, 0xF] := by
  rw [← fieldN_toNat]
  unfold decodeGroup8
  split
  case h_10 =>
    simp only [imp_false] at *
    have := (fieldN w).isLt
    simp only [List.mem_cons, List.not_mem_nil, or_false, true_iff]
    omega
  all_goals simp [*]

theorem decodeGroupE_eq_none_iff : decodeGroupE w = none ↔ w.toNat % 0x100 ∉ [0x9E, 0xA1] := by
  rw [← fieldKk_toNat]
  unfold decodeGroupE
  split <;> simp_all

theorem decodeGroupF_eq_none_iff :
    decodeGroupF w = none ↔ w.toNat % 0x100 ∉ [0x07, 0x0A, 0x15, 0x18, 0x1E, 0x29, 0x33, 0x55, 0x65] := by
  rw [← fieldKk_toNat]
  unfold decodeGroupF
  split <;> simp_all

theorem fieldN_eq_zero_iff : fieldN w = 0#4 ↔ w.toNat % 0x10 = 0 := by
  rw [← fieldN_toNat]
  exact BitVec.toNat_inj.symm

theorem toNat_div_0x1000 : w.toNat / 0x1000 = (fieldOp4 w).toNat := by
  rw [fieldOp4_toNat]
  omega

end Unknown

/-- Settles O4: the high nibble names the group, and no other group has an unknown word. -/
theorem unknownWords : Obligations.UnknownWords := by
  intro w
  rw [toNat_div_0x1000]
  unfold decodeWord
  split
  case h_1 hop => simp [hop, decodeGroup0_eq_none_iff]
  case h_6 hop | h_10 hop => simp [hop, fieldN_eq_zero_iff]
  case h_9 hop => simp [hop, decodeGroup8_eq_none_iff]
  case h_15 hop => simp [hop, decodeGroupE_eq_none_iff]
  case h_16 hop => simp [hop, decodeGroupF_eq_none_iff]
  case h_17 =>
    simp only [imp_false] at *
    have := (fieldOp4 w).isLt
    omega
  all_goals simp [*]

/-- Settles O5 by running the decoder on the nine words. -/
theorem sampleWordsDecode : Obligations.SampleWordsDecode := by
  unfold Obligations.SampleWordsDecode
  decide

/-! ### The bits that select the instruction (R94) -/

/-- The bits of a word that say which instruction it is, given its high nibble (R94). `opcodeMap_mask` ties it to the
opcode map and `decodeWord_mnemonic_and_selectorMask` to the decoder. -/
def selectorMask (op4 : BitVec 4) : Word :=
  match op4.toNat with
  | 0x0 => 0xFFFF
  | 0x5 | 0x8 | 0x9 => 0xF00F
  | 0xE | 0xF => 0xF0FF
  | _ => 0xF000

theorem fieldOp4_selectorMask (a : BitVec 4) : fieldOp4 (selectorMask a) = BitVec.allOnes 4 := by
  unfold selectorMask
  split <;> rfl

theorem fieldOp4_and_selectorMask (w : Word) (a : BitVec 4) : fieldOp4 (w &&& selectorMask a) = fieldOp4 w := by
  calc fieldOp4 (w &&& selectorMask a)
    _ = fieldOp4 w &&& fieldOp4 (selectorMask a) := BitVec.extractLsb'_and
    _ = fieldOp4 w := by rw [fieldOp4_selectorMask, BitVec.and_allOnes]

theorem fieldN_and_F00F (w : Word) : fieldN (w &&& 0xF00F) = fieldN w :=
  BitVec.extractLsb'_and.trans BitVec.and_allOnes

theorem fieldKk_and_F0FF (w : Word) : fieldKk (w &&& 0xF0FF) = fieldKk w :=
  BitVec.extractLsb'_and.trans BitVec.and_allOnes

section Congr

variable {v w : Word}

theorem decodeGroup8_mnemonic_congr (h : fieldN v = fieldN w) :
    (decodeGroup8 v).map Instr.mnemonic = (decodeGroup8 w).map Instr.mnemonic := by
  unfold decodeGroup8
  rw [h]
  split <;> rfl

theorem decodeGroupE_mnemonic_congr (h : fieldKk v = fieldKk w) :
    (decodeGroupE v).map Instr.mnemonic = (decodeGroupE w).map Instr.mnemonic := by
  unfold decodeGroupE
  rw [h]
  split <;> rfl

theorem decodeGroupF_mnemonic_congr (h : fieldKk v = fieldKk w) :
    (decodeGroupF v).map Instr.mnemonic = (decodeGroupF w).map Instr.mnemonic := by
  unfold decodeGroupF
  rw [h]
  split <;> rfl

end Congr

/-- Which instruction a word is depends on its selecting bits only. -/
theorem decodeWord_mnemonic_and_selectorMask (w : Word) :
    (decodeWord (w &&& selectorMask (fieldOp4 w))).map Instr.mnemonic = (decodeWord w).map Instr.mnemonic := by
  unfold decodeWord
  rw [fieldOp4_and_selectorMask]
  split
  case h_1 hop =>
    simp only [selectorMask, hop]
    exact congrArg (fun v => (decodeGroup0 v).map Instr.mnemonic) BitVec.and_allOnes
  case h_6 hop | h_10 hop =>
    simp only [selectorMask, hop, fieldN_and_F00F]
    split <;> rfl
  case h_9 hop => simpa only [selectorMask, hop] using decodeGroup8_mnemonic_congr (fieldN_and_F00F w)
  case h_15 hop => simpa only [selectorMask, hop] using decodeGroupE_mnemonic_congr (fieldKk_and_F0FF w)
  case h_16 hop => simpa only [selectorMask, hop] using decodeGroupF_mnemonic_congr (fieldKk_and_F0FF w)
  all_goals rfl

/-! ### The opcode map (R95) -/

theorem opcodeMap_mask : ∀ row ∈ opcodeMap, row.mask = selectorMask (fieldOp4 row.value) := by decide

theorem opcodeMap_value : ∀ row ∈ opcodeMap, (decodeWord row.value).map Instr.mnemonic = some row.mnemonic := by decide

theorem opcodeMap_mnemonic_nodup : (opcodeMap.map OpcodeRow.mnemonic).Nodup := by decide

open Laws.EncodesAsMapRow in
/-- The per-instruction laws, of every instruction. -/
theorem encode_matches_row (i : Instr) : Statement i := by
  cases i with
  | cls => exact cls
  | ret => exact ret
  | jump nnn => exact jump nnn
  | call nnn => exact call nnn
  | seImm x kk => exact seImm x kk
  | sneImm x kk => exact sneImm x kk
  | seReg x y => exact seReg x y
  | ldImm x kk => exact ldImm x kk
  | addImm x kk => exact addImm x kk
  | ldReg x y => exact ldReg x y
  | orReg x y => exact orReg x y
  | andReg x y => exact andReg x y
  | xorReg x y => exact xorReg x y
  | addReg x y => exact addReg x y
  | subReg x y => exact subReg x y
  | shr x y => exact shr x y
  | subnReg x y => exact subnReg x y
  | shl x y => exact shl x y
  | sneReg x y => exact sneReg x y
  | ldI nnn => exact ldI nnn
  | jumpV0 nnn => exact jumpV0 nnn
  | rnd x kk => exact rnd x kk
  | draw x y n => exact draw x y n
  | skp x => exact skp x
  | sknp x => exact sknp x
  | ldVxDT x => exact ldVxDT x
  | ldVxK x => exact ldVxK x
  | ldDT x => exact ldDT x
  | ldST x => exact ldST x
  | addI x => exact addI x
  | ldF x => exact ldF x
  | ldB x => exact ldB x
  | storeRegs x => exact storeRegs x
  | loadRegs x => exact loadRegs x

section Row

variable {row : OpcodeRow} (hrow : row ∈ opcodeMap)
include hrow

/-- A word with the fixed bits of a row has the selecting bits of the row's value, so it is the same instruction. -/
theorem decodeWord_mnemonic_of_row {op : Word} (h : op &&& row.mask = row.value) :
    (decodeWord op).map Instr.mnemonic = some row.mnemonic := by
  have hop : fieldOp4 row.value = fieldOp4 op := by
    rw [← h, opcodeMap_mask row hrow, fieldOp4_and_selectorMask]
  rw [← decodeWord_mnemonic_and_selectorMask, ← hop, ← opcodeMap_mask row hrow, h]
  exact opcodeMap_value row hrow

/-- The map names a row once, so the row of that name is the instruction's own. -/
theorem encode_and_mask {i : Instr} (h : i.mnemonic = row.mnemonic) : encode i &&& row.mask = row.value := by
  obtain ⟨hbits, hmem⟩ := encode_matches_row i
  obtain rfl := List.inj_on_of_nodup_map opcodeMap_mnemonic_nodup hmem hrow h
  exact hbits

end Row

/-- Settles O3: a word of two rows would be an instruction of two names. -/
theorem opcodeMapSelects : Obligations.OpcodeMapSelects := by
  refine ⟨rfl, fun op row hrow => ⟨?decodes, ?matched⟩, ?hasRow, ?disjoint⟩
  case decodes => exact fun h => Option.map_eq_some_iff.mp (decodeWord_mnemonic_of_row hrow h)
  case matched =>
    rintro ⟨i, hi, hname⟩
    rw [← encode_of_decodeWord hi]
    exact encode_and_mask hrow hname
  case hasRow =>
    intro i
    obtain ⟨-, hmem⟩ := encode_matches_row i
    exact ⟨_, hmem, rfl⟩
  case disjoint =>
    refine (List.pairwise_map.mp opcodeMap_mnemonic_nodup).imp_of_mem fun ha hb hne op ⟨hopa, hopb⟩ => hne ?_
    exact Option.some.inj ((decodeWord_mnemonic_of_row ha hopa).symm.trans (decodeWord_mnemonic_of_row hb hopb))

end Sys2Proof

/-! PROOFS. The shifts (R97, R174, R176, R182). -/

namespace Sys2Proof.Machine

theorem flagByte_toNat (c : Bool) : (flagByte c).toNat = c.toNat := by cases c <;> rfl

theorem shiftedOutRight_toNat (a : Byte) : (shiftedOutRight a).toNat = a.toNat % 2 := by
  rw [shiftedOutRight, BitVec.getLsbD, Nat.toNat_testBit, pow_zero, Nat.div_one]

theorem shiftedOutLeft_toNat (a : Byte) : (shiftedOutLeft a).toNat = a.toNat / 128 := by
  rw [shiftedOutLeft, BitVec.getLsbD, Nat.toNat_testBit]
  omega

theorem shiftRight_one_toNat (a : Byte) : (a >>> 1).toNat = a.toNat / 2 := by
  rw [BitVec.toNat_ushiftRight, Nat.shiftRight_eq_div_pow, pow_one]

theorem shiftLeft_one_toNat (a : Byte) : (a <<< 1).toNat = a.toNat * 2 % 256 := by
  rw [BitVec.toNat_shiftLeft, Nat.shiftLeft_eq, pow_one]

/-- `VF` takes a flag first and `V[x]`, read again, is then replaced: the shape of both shifts (R182). -/
def State.flagThenReg (s : State) (x : Reg) (c : Bool) (f : Byte → Byte) : State :=
  (s.setFlag c).setReg x (f ((s.setFlag c).reg x))

theorem exec_shr (x y : Reg) (s : State) :
    exec (.shr x y) s = .next (s.flagThenReg x (shiftedOutRight (s.reg x)) (· >>> 1)) := rfl

theorem exec_shl (x y : Reg) (s : State) :
    exec (.shl x y) s = .next (s.flagThenReg x (shiftedOutLeft (s.reg x)) (· <<< 1)) := rfl

section FlagThenReg

variable (s : State) {x : Reg} (c : Bool) (f : Byte → Byte)

theorem State.flagThenReg_frame : s.flagThenReg x c f = { s with v := (s.flagThenReg x c f).v } := rfl

theorem State.flagThenReg_reg_same (hx : x ≠ vF) : (s.flagThenReg x c f).reg x = f (s.reg x) := by
  simp [State.flagThenReg, hx]

theorem State.flagThenReg_reg_vF (hx : x ≠ vF) : (s.flagThenReg x c f).reg vF = flagByte c := by
  simp [State.flagThenReg, hx.symm]

theorem State.flagThenReg_vF : (s.flagThenReg vF c f).reg vF = f (flagByte c) := by
  simp [State.flagThenReg]

theorem State.flagThenReg_reg_other {r : Reg} (hr : r ≠ x) (hF : r ≠ vF) : (s.flagThenReg x c f).reg r = s.reg r := by
  simp [State.flagThenReg, hr, hF]

end FlagThenReg

/-- Settles O26: both shifts have the one shape, which takes no operand from the `y` field. -/
theorem shiftsByOne : Obligations.ShiftsByOne := by
  intro x y s
  refine ⟨⟨_, exec_shr x y s, fun hx => ⟨?right, ?rightFlag⟩, ?rightVF, fun r => s.flagThenReg_reg_other _ _,
      s.flagThenReg_frame _ _, exec_shr x 0 s⟩,
    ⟨_, exec_shl x y s, fun hx => ⟨?left, ?leftFlag⟩, ?leftVF, fun r => s.flagThenReg_reg_other _ _,
      s.flagThenReg_frame _ _, exec_shl x 0 s⟩⟩
  case right => rw [s.flagThenReg_reg_same _ _ hx, shiftRight_one_toNat]
  case rightFlag => rw [s.flagThenReg_reg_vF _ _ hx, flagByte_toNat, shiftedOutRight_toNat]
  case rightVF =>
    rintro rfl
    rw [s.flagThenReg_vF, shiftRight_one_toNat, flagByte_toNat, shiftedOutRight_toNat]
    omega
  case left => rw [s.flagThenReg_reg_same _ _ hx, shiftLeft_one_toNat]
  case leftFlag => rw [s.flagThenReg_reg_vF _ _ hx, flagByte_toNat, shiftedOutLeft_toNat]
  case leftVF =>
    rintro rfl
    rw [s.flagThenReg_vF, shiftLeft_one_toNat, flagByte_toNat, shiftedOutLeft_toNat]
    omega

end Sys2Proof.Machine

/-! PROOFS. The cycle of each kind (R120, R126, R133): what a decoded, an unknown and a halted one do, and what can stop
one (R247). -/

namespace Sys2Proof.Machine

/-! ### A decoded instruction (R125, R127, R128) -/

/-- The end of a cycle written out (R127, R128). -/
theorem State.endCycle_eq (s : State) : s.endCycle = { s with
    dt := if s.halted then s.dt else tickTimer s.dt
    st := if s.halted then s.st else tickTimer s.st
    inputs := s.inputs.tail
    cycle := s.cycle + 1
    loadable := false
    started := true } := by
  by_cases h : s.halted = true
  · rw [s.endCycle_of_halted h, if_pos h, if_pos h]; rfl
  · rw [s.endCycle_of_running (Bool.not_eq_true _ ▸ h), if_neg h, if_neg h]; rfl

theorem State.fetch_of_inside {s : State} (hpc : s.pc.toNat ≤ 0x0FFE) :
    s.fetch = some (wordOfBytes (s.mem.read s.pc.toNat) (s.mem.read (s.pc.toNat + 1))) := if_neg (Nat.not_lt.mpr hpc)

/-- Settles O7: the fetch gives the word of the two bytes, and the instruction's answer is finished. -/
theorem stepRunsDecoded : Obligations.StepRunsDecoded := by
  rintro s i _ _ hs hpc rfl rfl hdec
  rw [step_of_decoded hs (State.fetch_of_inside hpc) hdec, State.afterFetch, wordOfBytes]
  cases exec i _ with
  | next t => exact congrArg _ t.endCycle_eq
  | fault r => rfl
  | refused r => rfl

/-! ### An unknown word (R126, R246) -/

theorem step_of_unknown {s : State} {w : Word} (hs : s.halted = false) (hfetch : s.fetch = some w)
    (hdec : decodeWord w = none) : step s = .next (s.unknownCycle w) := by
  simp [step, hs, hfetch, hdec]

/-- The cycle of an unknown word written out: only the policy decides whether the core halts without a tick. -/
theorem State.unknownCycle_eq {s : State} (w : Word) (hs : s.halted = false) : s.unknownCycle w = { s with
    ir := w
    pc := s.pc + 2
    faultCode := some .unknownOpcode
    faultPc := s.pc
    report := some ⟨.unknownOpcode, s.pc, w, none⟩
    halted := s.unknownPolicy == .halt
    dt := if s.unknownPolicy == .halt then s.dt else tickTimer s.dt
    st := if s.unknownPolicy == .halt then s.st else tickTimer s.st
    inputs := s.inputs.tail
    cycle := s.cycle + 1
    loadable := false
    started := true } := by
  simp [State.unknownCycle, State.endCycle_eq, State.raiseUnknownOpcode, State.recordFault, State.afterFetch, hs]

/-- Settles O8. -/
theorem unknownOpcodeCycle : Obligations.UnknownOpcodeCycle := by
  intro s w hs hfetch hdec
  refine ⟨_, (step_of_unknown hs hfetch hdec).trans (congrArg _ (s.unknownCycle_eq w hs)), rfl, rfl, rfl, rfl, rfl, rfl,
    rfl, rfl, rfl, rfl, rfl, fun hgoOn => ?_, fun hhalt => ?_⟩
  · simp [hgoOn, tickTimer_toNat]
  · simp [hhalt]

/-! ### A halted core (R133, R253) -/

theorem State.sameCore.refl (s : State) : s.sameCore s := by simp [State.sameCore]

theorem State.sameCore.trans {s t u : State} (hst : s.sameCore t) (htu : t.sameCore u) : s.sameCore u := by
  simp_all [State.sameCore]

/-- The cycle of a halted core clears the report and moves on to the next input. -/
theorem State.haltedCycle_eq {s : State} (h : s.halted = true) :
    s.haltedCycle = ({ s with report := none } : State).nextInputs := State.endCycle_of_halted _ h

theorem State.sameCore_haltedCycle {s : State} (h : s.halted = true) : s.sameCore s.haltedCycle := by
  simp [State.haltedCycle_eq h, State.sameCore]

theorem State.haltedCycle_report {s : State} (h : s.halted = true) : s.haltedCycle.report = none := by
  rw [State.haltedCycle_eq h]; rfl

/-- Any number of cycles of a halted core; the report is clear if a cycle has run or it was clear before. -/
theorem run_of_halted (n : Nat) {s : State} (h : s.halted = true) :
    ∃ t, core.run n s = .next t ∧ s.sameCore t ∧ (0 < n ∨ s.report = none → t.report = none) := by
  induction n generalizing s with
  | zero => exact ⟨s, rfl, .refl s, fun hr => hr.resolve_left (Nat.lt_irrefl 0)⟩
  | succ n ih =>
    obtain ⟨t, hrun, hsame, hreport⟩ := ih (haltedCycle_halted h)
    exact ⟨t, (core_run_succ_of_next n (step_of_halted h)).trans hrun, (State.sameCore_haltedCycle h).trans hsame,
      fun _ => hreport (.inr (State.haltedCycle_report h))⟩

/-- Settles O10. -/
theorem haltedForever : Obligations.HaltedForever := by
  intro n s h
  obtain ⟨t, hrun, hsame, hreport⟩ := run_of_halted n h
  exact ⟨t, hrun, hsame, fun hn => hreport (.inl hn)⟩

/-! ### What can stop a cycle (R247, U2) -/

/-- `StackFaultStops i s r`: under STACK_FAULT_POLICY = continue the instruction meets a stack fault, and `r` is the
stop that names it (R247; log entry 6). -/
inductive StackFaultStops (i : Instr) (s : State) : Fault → Prop where
  | overflow (nnn : BitVec 12) (hi : i = .call nnn) (hpolicy : s.stackPolicy = .goOn) (hsp : s.sp.val = 16) :
    StackFaultStops i s (.stackFaultContinued .stackOverflow)
  | underflow (hi : i = .ret) (hpolicy : s.stackPolicy = .goOn) (hsp : s.sp.val = 0) :
    StackFaultStops i s (.stackFaultContinued .stackUnderflow)

theorem StackFaultStops.stackPolicy {i : Instr} {s : State} {r : Fault} (h : StackFaultStops i s r) :
    s.stackPolicy = .goOn := by
  cases h <;> assumption

theorem execCall_next_or_stops (nnn : BitVec 12) (s : State) :
    (∃ t, execCall nnn s = .next t) ∨ ∃ r, execCall nnn s = .fault r ∧ StackFaultStops (.call nnn) s r := by
  unfold execCall
  obtain ⟨hsp, hpush⟩ | ⟨_, hpush⟩ := s.push_cases s.pc
  · rw [hpush]
    obtain ⟨-, hraise⟩ | ⟨hpolicy, hraise⟩ := s.raiseStackFault_cases .stackOverflow
    · exact .inl ⟨_, hraise⟩
    · exact .inr ⟨_, hraise, .overflow nnn rfl hpolicy hsp⟩
  · rw [hpush]
    exact .inl ⟨_, rfl⟩

theorem execRet_next_or_stops (s : State) :
    (∃ t, execRet s = .next t) ∨ ∃ r, execRet s = .fault r ∧ StackFaultStops .ret s r := by
  unfold execRet
  obtain ⟨hsp, hpop⟩ | ⟨_, hpop⟩ := s.pop_cases
  · rw [hpop]
    obtain ⟨-, hraise⟩ | ⟨hpolicy, hraise⟩ := s.raiseStackFault_cases .stackUnderflow
    · exact .inl ⟨_, hraise⟩
    · exact .inr ⟨_, hraise, .underflow rfl hpolicy hsp⟩
  · rw [hpop]
    exact .inl ⟨_, rfl⟩

theorem execDraw_of_ok {x y : Reg} {n : BitVec 4} {s : State} {rows : List Byte} (h : s.loadBytes n.toNat = .ok rows) :
    execDraw x y n s = .next ((s.setFb (drawSprite s.fb (s.reg x) (s.reg y) rows).1).setFlag
      (drawSprite s.fb (s.reg x) (s.reg y) rows).2) := by
  rw [execDraw, h]

/-- Every instruction gives a next state or meets a continued stack fault. -/
theorem exec_next_or_stops (i : Instr) (s : State) :
    (∃ t, exec i s = .next t) ∨ ∃ r, exec i s = .fault r ∧ StackFaultStops i s r := by
  cases i with
  | call nnn => exact execCall_next_or_stops nnn s
  | ret => exact execRet_next_or_stops s
  | skp x | sknp x => exact .inl ⟨_, (apply_ite Host.Outcome.next ..).symm⟩
  | draw x y n =>
    cases hload : s.loadBytes n.toNat with
    | error a => exact .inl ⟨_, execDraw_of_error hload⟩
    | ok rows => exact .inl ⟨_, execDraw_of_ok hload⟩
  | loadRegs x =>
    cases hload : s.loadBytes x.val with
    | error a => exact .inl ⟨_, execLoadRegs_of_error hload⟩
    | ok bytes => exact .inl ⟨_, execLoadRegs_of_ok hload⟩
  | _ => exact .inl ⟨_, rfl⟩

/-- Every cycle gives a next state, or its decoded instruction meets a continued stack fault. -/
theorem step_next_or_stops (s : State) :
    (∃ t, step s = .next t) ∨ ∃ w i r, s.fetch = some w ∧ decodeWord w = some i ∧ step s = .fault r ∧
      StackFaultStops i (s.afterFetch w) r := by
  cases hs : s.halted with
  | true => exact .inl ⟨_, step_of_halted hs⟩
  | false =>
  cases hfetch : s.fetch with
  | none => exact .inl ⟨_, step_of_fetch_fault hs hfetch⟩
  | some w =>
  cases hdec : decodeWord w with
  | none => exact .inl ⟨_, step_of_unknown hs hfetch hdec⟩
  | some i =>
  rw [step_of_decoded hs hfetch hdec]
  obtain ⟨t, hexec⟩ | ⟨r, hexec, hstop⟩ := exec_next_or_stops i (s.afterFetch w)
  · exact .inl ⟨_, congrArg finishCycle hexec⟩
  · exact .inr ⟨w, i, r, rfl, hdec, congrArg finishCycle hexec, hstop⟩

/-- Settles O14: the fetch leaves `sp` and the policies, so a stop of the instruction is one of the cycle's start. -/
theorem stepStopsOnlyOnContinuedStackFault : Obligations.StepStopsOnlyOnContinuedStackFault := by
  refine ⟨fun s r h => ?refused, fun s r h => ?fault, fun s hpolicy => ?halt⟩ <;>
    obtain ⟨t, hnext⟩ | ⟨w, i, r', hfetch, hdec, hfault, hstop⟩ := step_next_or_stops s
  case refused.inl => cases hnext.symm.trans h
  case refused.inr => cases hfault.symm.trans h
  case fault.inl => cases hnext.symm.trans h
  case fault.inr =>
    cases hfault.symm.trans h
    refine ⟨hstop.stackPolicy, w, hfetch, ?_⟩
    cases hstop with
    | overflow nnn hi _ hsp => exact .inl ⟨nnn, hi ▸ hdec, hsp, rfl⟩
    | underflow hi _ hsp => exact .inr ⟨hi ▸ hdec, hsp, rfl⟩
  case halt.inl => exact ⟨t, hnext⟩
  case halt.inr => cases hpolicy.symm.trans hstop.stackPolicy

/-! ### The key skips and the timers (R220 to R230) -/

theorem exec_skp_of_key {x : Reg} {s : State} (hx : (s.reg x).toNat ≤ 15) :
    exec (.skp x) s = .next (s.skipIf (s.key (s.reg x).toNat)) := if_neg (Nat.not_lt.mpr hx)

theorem exec_sknp_of_key {x : Reg} {s : State} (hx : (s.reg x).toNat ≤ 15) :
    exec (.sknp x) s = .next (s.skipIf (!s.key (s.reg x).toNat)) := if_neg (Nat.not_lt.mpr hx)

/-- A skip moves `pc` on by 2 modulo 65536 (R25). -/
theorem State.skipIf_pc_toNat (s : State) (c : Bool) :
    (s.skipIf c).pc.toNat = if c then (s.pc.toNat + 2) % 0x10000 else s.pc.toNat := by
  rw [State.skipIf_pc]
  cases c
  · rfl
  · exact BitVec.toNat_add s.pc 2

/-- Settles O42. -/
theorem keySkips : Obligations.KeySkips := by
  intro x s hx
  refine ⟨⟨_, exec_skp_of_key hx, s.skipIf_pc_toNat _, rfl⟩, ⟨_, exec_sknp_of_key hx, ?notHeld, rfl⟩⟩
  case notHeld =>
    rw [s.skipIf_pc_toNat, State.key]
    cases s.input.keys.getLsbD (s.reg x).toNat <;> rfl

/-- As `step_of_exec`, where the instruction leaves the core running: the timers tick. -/
theorem step_of_exec_running {s u : State} {w : Word} {i : Instr} (hs : s.halted = false) (hfetch : s.fetch = some w)
    (hdec : decodeWord w = some i) (hexec : exec i (s.afterFetch w) = .next u) (hu : u.halted = false) :
    step s = .next u.tick.nextInputs :=
  (step_of_exec hs hfetch hdec hexec).trans (congrArg _ (u.endCycle_of_running hu))

/-- Settles O46: the tick follows the instruction. -/
theorem timerCycles : Obligations.TimerCycles := by
  intro x s w hs hfetch
  refine ⟨fun hdec => ⟨_, step_of_exec_running hs hfetch hdec rfl hs, ?readsDelay, tickTimer_toNat s.dt⟩,
    fun hdec => ⟨_, step_of_exec_running hs hfetch hdec rfl hs, tickTimer_toNat (s.reg x)⟩,
    fun hdec => ⟨_, step_of_exec_running hs hfetch hdec rfl hs, tickTimer_toNat (s.reg x)⟩⟩
  case readsDelay => simp

end Sys2Proof.Machine

/-! PROOFS. Control transfer (R140 to R153): the call stack, the jumps and the comparing skips. -/

namespace Sys2Proof.Machine

/-! ### The call stack (R144, R146, R148, R247) -/

/-- An address constant keeps its value (R93). -/
theorem addrWord_toNat (nnn : BitVec 12) : (addrWord nnn).toNat = nnn.toNat :=
  BitVec.toNat_setWidth_of_le (by decide)

section CallStack

variable {s : State}

theorem exec_call_of_room (nnn : BitVec 12) (h : s.sp.val < 16) :
    exec (.call nnn) s = .next
      { s with stack := s.stack.set s.sp.val s.pc, sp := ⟨s.sp.val + 1, by omega⟩, pc := addrWord nnn } := by
  rw [exec, execCall, s.push_of_lt s.pc h]
  rfl

theorem exec_call_of_full (nnn : BitVec 12) (h : s.sp.val = 16) :
    exec (.call nnn) s = s.raiseStackFault .stackOverflow := by
  rw [exec, execCall, s.push_of_full s.pc h]

theorem exec_ret_of_pos (h : 0 < s.sp.val) :
    exec .ret s = .next { s with sp := ⟨s.sp.val - 1, by omega⟩, pc := s.stack[s.sp.val - 1] } := by
  rw [exec, execRet, s.pop_of_pos h]
  rfl

theorem exec_ret_of_empty (h : s.sp.val = 0) : exec .ret s = s.raiseStackFault .stackUnderflow := by
  rw [exec, execRet, s.pop_of_empty h]

/-- Under the policy `halt` a stack fault writes the record and the report, halts, and changes nothing else (R247). -/
theorem State.raiseStackFault_of_halt (k : FaultKind) (h : s.stackPolicy = .halt) :
    s.raiseStackFault k = .next { s with
      faultCode := some k, faultPc := s.pc - 2, halted := true, report := some ⟨k, s.pc - 2, s.ir, none⟩ } := by
  obtain ⟨-, hraise⟩ | ⟨hgoOn, -⟩ := s.raiseStackFault_cases k
  · rw [hraise, s.raise_eq]
  · cases h.symm.trans hgoOn

end CallStack

/-- Settles O18. -/
theorem callPushes : Obligations.CallPushes := by
  intro nnn s
  refine ⟨fun hroom => ⟨_, exec_call_of_room nnn hroom, addrWord_toNat nnn, rfl, fun k => ?slots, rfl⟩,
    fun hfull hpolicy => ⟨_, (exec_call_of_full nnn hfull).trans (State.raiseStackFault_of_halt _ hpolicy),
      rfl, rfl, rfl, rfl, rfl⟩⟩
  case slots => simp only [Vector.getElem_set, eq_comm]

/-- Settles O19. -/
theorem returnPops : Obligations.ReturnPops := by
  intro s
  refine ⟨fun hpos => ⟨_, exec_ret_of_pos hpos, Nat.sub_add_cancel hpos, fun k hk => ?slot, rfl⟩,
    fun hempty hpolicy => ⟨_, (exec_ret_of_empty hempty).trans (State.raiseStackFault_of_halt _ hpolicy),
      rfl, rfl, rfl, rfl, rfl⟩⟩
  case slot => simp only [hk]

/-- Settles O21: the RETURN reads the slot numbered by the caller's `sp`, which the CALL filled with its `pc`. -/
theorem callThenReturn : Obligations.CallThenReturn := by
  intro nnn s t u hroom hcall hstack hsp
  obtain ⟨t', hcall', -, htsp, htstack, -⟩ := (callPushes nnn s).1 hroom
  obtain rfl : t' = t := Host.Outcome.next.inj (hcall'.symm.trans hcall)
  have husp : u.sp.val = s.sp.val + 1 := hsp ▸ htsp
  obtain ⟨r, hret, hrsp, hrpc, -⟩ := (returnPops u).1 (by omega)
  have hsame : r.sp.val = s.sp.val := by omega
  refine ⟨r, hret, ?pc, Fin.ext hsame⟩
  case pc =>
    calc r.pc = u.stack[s.sp.val] := hrpc ⟨s.sp.val, hroom⟩ hsame.symm
      _ = t'.stack[s.sp.val] := by rw [hstack]
      _ = s.pc := (htstack ⟨s.sp.val, hroom⟩).trans (if_pos rfl)

/-! ### The jumps (R140, R142) -/

/-- The target of `Bnnn` is the sum modulo 4096 (R142). -/
theorem jumpV0Target_toNat (nnn : BitVec 12) (b : Byte) :
    (jumpV0Target nnn b).toNat = (nnn.toNat + b.toNat) % 0x1000 := by
  rw [jumpV0Target, and_0FFF_toNat, BitVec.toNat_add, addrWord_toNat, BitVec.toNat_setWidth_of_le (by decide)]
  omega

/-- Settles O17. -/
theorem jumpTargets : Obligations.JumpTargets := fun nnn s =>
  ⟨⟨s.setPc (addrWord nnn), rfl, addrWord_toNat nnn, rfl⟩,
    ⟨s.setPc (jumpV0Target nnn (s.reg 0)), rfl, jumpV0Target_toNat nnn (s.reg 0), rfl⟩⟩

/-! ### The comparing skips (R150 to R153) -/

theorem State.skipIf_beq_pc_toNat (s : State) (a b : Byte) :
    (s.skipIf (a == b)).pc.toNat = if a = b then (s.pc.toNat + 2) % 0x10000 else s.pc.toNat := by
  simp only [s.skipIf_pc_toNat, beq_iff_eq]

theorem State.skipIf_bne_pc_toNat (s : State) (a b : Byte) :
    (s.skipIf (a != b)).pc.toNat = if a = b then s.pc.toNat else (s.pc.toNat + 2) % 0x10000 := by
  simp only [s.skipIf_pc_toNat, bne_iff_ne, ite_not]

/-- Settles O22. -/
theorem comparingSkips : Obligations.ComparingSkips := fun x y kk s =>
  ⟨⟨_, rfl, s.skipIf_beq_pc_toNat (s.reg x) kk, rfl⟩, ⟨_, rfl, s.skipIf_bne_pc_toNat (s.reg x) kk, rfl⟩,
    ⟨_, rfl, s.skipIf_beq_pc_toNat (s.reg x) (s.reg y), rfl⟩, ⟨_, rfl, s.skipIf_bne_pc_toNat (s.reg x) (s.reg y), rfl⟩⟩

end Sys2Proof.Machine

/-! PROOFS. The instructions that replace one register, and those that leave a carry or not-borrow in `VF` last (R160 to
R175, R182). -/

namespace Sys2Proof.Machine

/-! ### One register replaced (R160 to R168) -/

/-- What a view of a register, its value or one of its bits, gives after a register write. -/
theorem State.setReg_reg_view {α : Type} (view : Byte → α) (s : State) (x : Reg) (b : Byte) (r : Reg) :
    view ((s.setReg x b).reg r) = if r = x then view b else view (s.reg r) := by
  rw [State.setReg_reg, apply_ite view]

theorem State.setReg_reg_toNat (s : State) (x : Reg) (b : Byte) (r : Reg) :
    ((s.setReg x b).reg r).toNat = if r = x then b.toNat else (s.reg r).toNat :=
  s.setReg_reg_view BitVec.toNat x b r

theorem State.setReg_reg_getLsbD (s : State) (x : Reg) (b : Byte) (r : Reg) (k : Nat) :
    ((s.setReg x b).reg r).getLsbD k = if r = x then b.getLsbD k else (s.reg r).getLsbD k :=
  s.setReg_reg_view (·.getLsbD k) x b r

/-- Settles O23: each of the six is one register write; the sum is read as a number and the logic bit by bit. -/
theorem plainRegisterResults : Obligations.PlainRegisterResults := by
  intro x y kk s
  refine ⟨⟨_, rfl, s.setReg_reg x kk, rfl⟩, ⟨_, rfl, fun r => ?add, rfl⟩, ⟨_, rfl, s.setReg_reg x (s.reg y), rfl⟩,
    ⟨_, rfl, fun r k => ?or, rfl⟩, ⟨_, rfl, fun r k => ?and, rfl⟩, ⟨_, rfl, fun r k => ?xor, rfl⟩⟩
  case add => rw [s.setReg_reg_toNat, BitVec.toNat_add]
  case or => rw [s.setReg_reg_getLsbD, BitVec.getLsbD_or]
  case and => rw [s.setReg_reg_getLsbD, BitVec.getLsbD_and]
  case xor => rw [s.setReg_reg_getLsbD, BitVec.getLsbD_xor]

/-! ### A register, then the flag (R170, R172, R175, R182) -/

/-- `V[x]` is replaced and `VF` takes a flag last: the shape of `8xy4`, `8xy5` and `8xy7` (R182). -/
def State.regThenFlag (s : State) (x : Reg) (b : Byte) (c : Bool) : State := (s.setReg x b).setFlag c

theorem exec_addReg (x y : Reg) (s : State) :
    exec (.addReg x y) s = .next (s.regThenFlag x (s.reg x + s.reg y) (carryOut (s.reg x) (s.reg y))) := rfl

theorem exec_subReg (x y : Reg) (s : State) :
    exec (.subReg x y) s = .next (s.regThenFlag x (s.reg x - s.reg y) (notBorrow (s.reg x) (s.reg y))) := rfl

theorem exec_subnReg (x y : Reg) (s : State) :
    exec (.subnReg x y) s = .next (s.regThenFlag x (s.reg y - s.reg x) (notBorrow (s.reg y) (s.reg x))) := rfl

/-- The byte of a flag that records a condition (R38). -/
theorem flagByte_decide_toNat (p : Prop) [Decidable p] : (flagByte (decide p)).toNat = if p then 1 else 0 := by
  rw [flagByte_toNat, Bool.toNat, Bool.cond_decide]

/-- The wrapped difference is the integer difference modulo 256 (R172). -/
theorem sub_toNat_int (a b : Byte) : ((a - b).toNat : Int) = (a.toNat - b.toNat : Int) % 256 := by
  rw [BitVec.toNat_sub]
  omega

section RegThenFlag

variable (s : State) (x : Reg) (a b : Byte) (c : Bool)

theorem State.regThenFlag_frame : s.regThenFlag x b c = { s with v := (s.regThenFlag x b c).v } := rfl

theorem State.regThenFlag_reg_vF : (s.regThenFlag x b c).reg vF = flagByte c := by
  simp [State.regThenFlag]

theorem State.regThenFlag_reg_vF_toNat (p : Prop) [Decidable p] :
    ((s.regThenFlag x b (decide p)).reg vF).toNat = if p then 1 else 0 := by
  rw [s.regThenFlag_reg_vF, flagByte_decide_toNat]

variable {x}

theorem State.regThenFlag_reg_same (hx : x ≠ vF) : (s.regThenFlag x b c).reg x = b := by
  simp [State.regThenFlag, hx]

theorem State.regThenFlag_add_toNat (hx : x ≠ vF) :
    ((s.regThenFlag x (a + b) c).reg x).toNat = (a.toNat + b.toNat) % 256 := by
  rw [s.regThenFlag_reg_same _ c hx, BitVec.toNat_add]

theorem State.regThenFlag_sub_toNat (hx : x ≠ vF) :
    (((s.regThenFlag x (a - b) c).reg x).toNat : Int) = (a.toNat - b.toNat : Int) % 256 := by
  rw [s.regThenFlag_reg_same _ c hx, sub_toNat_int]

theorem State.regThenFlag_reg_other {r : Reg} (hr : r ≠ x) (hF : r ≠ vF) : (s.regThenFlag x b c).reg r = s.reg r := by
  simp [State.regThenFlag, hr, hF]

end RegThenFlag

/-- Settles O24. -/
theorem addWithCarry : Obligations.AddWithCarry := fun x y s =>
  ⟨_, exec_addReg x y s, s.regThenFlag_reg_vF_toNat x _ _, s.regThenFlag_add_toNat _ _ _,
    fun _ => s.regThenFlag_reg_other _ _, s.regThenFlag_frame x _ _⟩

/-- Settles O25: the two subtractions differ in the order of their operands only. -/
theorem subtractWithNotBorrow : Obligations.SubtractWithNotBorrow := fun x y s =>
  ⟨⟨_, exec_subReg x y s, s.regThenFlag_reg_vF_toNat x _ _, s.regThenFlag_sub_toNat _ _ _,
      fun _ => s.regThenFlag_reg_other _ _, s.regThenFlag_frame x _ _⟩,
    ⟨_, exec_subnReg x y s, s.regThenFlag_reg_vF_toNat x _ _, s.regThenFlag_sub_toNat _ _ _,
      fun _ => s.regThenFlag_reg_other _ _, s.regThenFlag_frame x _ _⟩⟩

end Sys2Proof.Machine

/-! PROOFS. The draw (R182, R212, R214): the cells a sprite covers, the state after a draw, and two draws in a row. -/

namespace Sys2Proof.Machine

/-! ### The sprite in memory (R212) -/

/-- The `n` bytes of the sprite at `I`. -/
def State.spriteRows (s : State) (n : Nat) : List Byte := (addressSpan s.index.toNat n).map fun a => s.mem.read a

theorem State.spriteRows_length (s : State) (n : Nat) : (s.spriteRows n).length = n := by
  simp [State.spriteRows]

theorem State.spriteRows_getElem?_eq_some (s : State) (n k : Nat) (b : Byte) :
    (s.spriteRows n)[k]? = some b ↔ k < n ∧ s.mem.read (s.index.toNat + k) = b := by
  rw [State.spriteRows, List.getElem?_map]
  by_cases hk : k < n
  · rw [addressSpan_getElem? _ _ _ hk, Option.map_some, Option.some_inj, and_iff_right hk]
  · simp [hk]

/-- A cell of the drawing order is one whose row and column are the wrapped sums. -/
theorem spriteCell_eq_iff (vx vy : Byte) (r c : Nat) (p : FbCell) :
    spriteCell vx vy r c = p ↔ p.1.val = (vy.toNat + r) % 32 ∧ p.2.val = (vx.toNat + c) % 64 := by
  simp only [spriteCell, Prod.ext_iff, Fin.ext_iff, Fin.val_ofNat, eq_comm]

/-- The cells that a draw inverts are those that the sprite covers. -/
theorem mem_spriteCells_iff_spriteCovers (s : State) (vx vy : Byte) (n : Nat) (p : FbCell) :
    p ∈ spriteCells vx vy 0 (s.spriteRows n) ↔ spriteCovers s vx vy n p := by
  simp only [mem_spriteCells, s.spriteRows_getElem?_eq_some, spriteCell_eq_iff, Nat.zero_add, spriteCovers]
  constructor
  · rintro ⟨r, _, c, ⟨hr, rfl⟩, hc, hbit, hcell⟩
    exact ⟨r, c, hr, hc, hbit, hcell⟩
  · rintro ⟨r, c, hr, hc, hbit, hcell⟩
    exact ⟨r, _, c, ⟨hr, rfl⟩, hc, hbit, hcell⟩

/-- Which cells a sprite covers depends on the memory and `I` only. -/
theorem spriteCovers_congr {s u : State} (hmem : u.mem = s.mem) (hindex : u.index = s.index) :
    spriteCovers u = spriteCovers s := by
  unfold spriteCovers
  rw [hmem, hindex]

/-! ### One draw (R212) -/

/-- The new framebuffer and the collision of a draw of the sprite at `I`. -/
def State.blit (s : State) (x y : Reg) (n : BitVec 4) : Framebuffer × Bool :=
  drawSprite s.fb (s.reg x) (s.reg y) (s.spriteRows n.toNat)

/-- The state after a draw whose bytes lie inside `mem`. -/
def State.drawn (s : State) (x y : Reg) (n : BitVec 4) : State := (s.setFb (s.blit x y n).1).setFlag (s.blit x y n).2

theorem exec_draw_of_inside {x y : Reg} {n : BitVec 4} {s : State} (h : n = 0 ∨ s.index.toNat + n.toNat ≤ 0x1000) :
    exec (.draw x y n) s = .next (s.drawn x y n) :=
  execDraw_of_ok (State.loadBytes_of_inside (h.imp_left (congrArg BitVec.toNat)))

theorem flagByte_eq_one_iff (c : Bool) : flagByte c = 1 ↔ c = true := by cases c <;> decide

theorem flagByte_eq_zero_iff (c : Bool) : flagByte c = 0 ↔ c = false := by cases c <;> decide

section Drawn

variable (s : State) (x y : Reg) (n : BitVec 4)

theorem State.blit_spec :
    (∀ p, (s.blit x y n).1.cell p =
      (s.fb.cell p ^^ decide (p ∈ spriteCells (s.reg x) (s.reg y) 0 (s.spriteRows n.toNat)))) ∧
      (s.blit x y n).2 = (spriteCells (s.reg x) (s.reg y) 0 (s.spriteRows n.toNat)).any fun p => s.fb.cell p :=
  drawSprite_spec _ _ _ _ (by rw [s.spriteRows_length]; omega)

theorem State.drawn_fb : (s.drawn x y n).fb = (s.blit x y n).1 := rfl

theorem State.drawn_frame : s.drawn x y n = { s with fb := (s.drawn x y n).fb, v := (s.drawn x y n).v } := rfl

theorem State.drawn_reg_other {r : Reg} (hr : r ≠ vF) : (s.drawn x y n).reg r = s.reg r := by
  simp [State.drawn, hr]

variable {x y n}

theorem State.drawn_cell_of_covers {p : FbCell} (h : spriteCovers s (s.reg x) (s.reg y) n.toNat p) :
    (s.drawn x y n).fb.cell p = !s.fb.cell p := by
  obtain ⟨hcell, -⟩ := s.blit_spec x y n
  simpa [s.drawn_fb, (mem_spriteCells_iff_spriteCovers ..).mpr h] using hcell p

theorem State.drawn_cell_of_not_covers {p : FbCell} (h : ¬spriteCovers s (s.reg x) (s.reg y) n.toNat p) :
    (s.drawn x y n).fb.cell p = s.fb.cell p := by
  obtain ⟨hcell, -⟩ := s.blit_spec x y n
  simpa [s.drawn_fb, mt (mem_spriteCells_iff_spriteCovers ..).mp h] using hcell p

/-- The collision of a draw: a covered cell was lit. -/
theorem State.blit_collision_iff :
    (s.blit x y n).2 = true ↔ ∃ p, spriteCovers s (s.reg x) (s.reg y) n.toNat p ∧ s.fb.cell p = true := by
  obtain ⟨-, hcollision⟩ := s.blit_spec x y n
  simp only [hcollision, List.any_eq_true, mem_spriteCells_iff_spriteCovers]

theorem State.drawn_reg_vF : (s.drawn x y n).reg vF = flagByte (s.blit x y n).2 := by
  simp [State.drawn]

theorem State.drawn_reg_vF_eq_one_iff :
    (s.drawn x y n).reg vF = 1 ↔ ∃ p, spriteCovers s (s.reg x) (s.reg y) n.toNat p ∧ s.fb.cell p = true := by
  rw [s.drawn_reg_vF, flagByte_eq_one_iff, s.blit_collision_iff]

theorem State.drawn_reg_vF_eq_zero_iff :
    (s.drawn x y n).reg vF = 0 ↔ ¬∃ p, spriteCovers s (s.reg x) (s.reg y) n.toNat p ∧ s.fb.cell p = true := by
  rw [s.drawn_reg_vF, flagByte_eq_zero_iff, ← s.blit_collision_iff, Bool.not_eq_true]

theorem State.drawn_reg_vF_zero_or_one : (s.drawn x y n).reg vF = 0 ∨ (s.drawn x y n).reg vF = 1 := by
  rw [s.drawn_reg_vF_eq_zero_iff, s.drawn_reg_vF_eq_one_iff]
  exact (em _).symm

end Drawn

/-- Settles O39. -/
theorem drawInvertsSpriteCells : Obligations.DrawInvertsSpriteCells := fun x y n s h =>
  ⟨s.drawn x y n, exec_draw_of_inside h, fun _ => s.drawn_cell_of_covers, fun _ => s.drawn_cell_of_not_covers,
    s.drawn_reg_vF_eq_one_iff.mpr, s.drawn_reg_vF_eq_zero_iff.mpr, fun _ => s.drawn_reg_other x y n,
    s.drawn_frame x y n⟩

/-! ### Two instructions in a row (R214) -/

/-- Settles O40: the second draw covers the same cells, each of which the first one inverted. -/
theorem drawTwiceRestores : Obligations.DrawTwiceRestores := by
  intro x y n s t u h hdraw hfb hmem hindex hx hy
  obtain rfl : s.drawn x y n = t := Host.Outcome.next.inj ((exec_draw_of_inside h).symm.trans hdraw)
  have hcovers : spriteCovers u (u.reg x) (u.reg y) = spriteCovers s (s.reg x) (s.reg y) := by
    rw [hx, hy, spriteCovers_congr hmem hindex]
    rfl
  have hlit {p : FbCell} (hp : spriteCovers s (s.reg x) (s.reg y) n.toNat p) : u.fb.cell p = !s.fb.cell p := by
    rw [hfb, s.drawn_cell_of_covers hp]
  refine ⟨u.drawn x y n, exec_draw_of_inside (hindex ▸ h), Framebuffer.ext_cell fun p => ?restored, ?collision,
    u.drawn_reg_vF_zero_or_one⟩
  case restored =>
    by_cases hp : spriteCovers s (s.reg x) (s.reg y) n.toNat p
    · rw [u.drawn_cell_of_covers (hcovers ▸ hp), hlit hp, Bool.not_not]
    · rw [u.drawn_cell_of_not_covers (hcovers ▸ hp), hfb, s.drawn_cell_of_not_covers hp]
  case collision =>
    rw [u.drawn_reg_vF_eq_one_iff, hcovers]
    refine exists_congr fun p => and_congr_right fun hp => ?_
    rw [hlit hp, Bool.not_eq_true']

/-- Drawn on a dark framebuffer, a sprite lights exactly the cells it covers. -/
theorem State.drawn_cell_iff_of_dark {s : State} (hdark : ∀ p, s.fb.cell p = false) (x y : Reg) (n : BitVec 4)
    (p : FbCell) : (s.drawn x y n).fb.cell p = true ↔ spriteCovers s (s.reg x) (s.reg y) n.toNat p := by
  by_cases hp : spriteCovers s (s.reg x) (s.reg y) n.toNat p
  · simp [s.drawn_cell_of_covers hp, hdark, hp]
  · simp [s.drawn_cell_of_not_covers hp, hdark, hp]

theorem State.drawn_reg_vF_of_dark {s : State} (hdark : ∀ p, s.fb.cell p = false) (x y : Reg) (n : BitVec 4) :
    (s.drawn x y n).reg vF = 0 :=
  s.drawn_reg_vF_eq_zero_iff.mpr fun ⟨p, _, hlit⟩ => Bool.false_ne_true ((hdark p).symm.trans hlit)

/-- Settles O41: `00E0` leaves a dark framebuffer and the sprite, its place and its bytes as they were. -/
theorem clearThenDraw : Obligations.ClearThenDraw := by
  intro x y n s t h hcls
  obtain rfl : s.setFb Framebuffer.clear = t := Host.Outcome.next.inj hcls
  have hdark : ∀ p, (s.setFb Framebuffer.clear).fb.cell p = false := Framebuffer.clear_cell
  exact ⟨_, exec_draw_of_inside h, State.drawn_cell_iff_of_dark hdark x y n, State.drawn_reg_vF_of_dark hdark x y n⟩

end Sys2Proof.Machine

/-! PROOFS. The loads of `I` (R190, R194), and the digits of `Fx33` read back by `Fx65` (R202). -/

namespace Sys2Proof.Machine

/-- Settles O28. -/
theorem indexLoads : Obligations.IndexLoads := fun nnn x s =>
  ⟨⟨s.setIndex (addrWord nnn), rfl, addrWord_toNat nnn, rfl⟩,
    ⟨s.setIndex (glyphAddress (s.reg x)), rfl, glyphAddress_toNat (s.reg x), rfl⟩⟩

/-- Settles O36: `F365` reads the three digits that `Fx33` stored. -/
theorem bcdThenLoad : Obligations.BcdThenLoad := by
  intro x s t u hwf hlo hhi hstore hmem hindex
  obtain ⟨t', hstore', hhundreds, htens, hones, -⟩ := bcdStoresDigits x s hwf hlo hhi
  obtain rfl : t' = t := Host.Outcome.next.inj (hstore'.symm.trans hstore)
  obtain ⟨w, hload, hreg, -⟩ := blockLoad 3 u (.inr (hindex ▸ Nat.succ_le_succ hhi))
  rw [hmem, hindex] at hreg
  have h0 : w.reg 0 = t'.mem.read s.index.toNat := hreg 0
  have h1 : w.reg 1 = t'.mem.read (s.index.toNat + 1) := hreg 1
  have h2 : w.reg 2 = t'.mem.read (s.index.toNat + 2) := hreg 2
  refine ⟨w, hload, ?_⟩
  rw [h0, h1, h2, hhundreds, htens, hones]
  have hbyte := (s.reg x).isLt
  omega

end Sys2Proof.Machine

/-! PROOFS. The clear (R210). -/

namespace Sys2Proof.Machine

theorem exec_cls (s : State) : exec .cls s = .next (s.setFb Framebuffer.clear) := rfl

/-- Settles O38. -/
theorem clearScreen : Obligations.ClearScreen := fun s =>
  ⟨s.setFb Framebuffer.clear, exec_cls s, Framebuffer.clear_cell, rfl⟩

end Sys2Proof.Machine

/-! PROOFS. The key index fault (R220, R222), the wait for a key (R224), and the timer registers (R226 to R230). -/

namespace Sys2Proof.Machine

/-! ### The key index fault -/

/-- Both key skips fault on a register above 15, whatever keys are held. -/
theorem exec_keySkip_of_no_such_key {x : Reg} {s : State} {i : Instr} (hi : i = .skp x ∨ i = .sknp x)
    (hx : 15 < (s.reg x).toNat) : exec i s = .next (s.raise .keyIndexOutOfRange (some (s.reg x).toNat)) := by
  obtain rfl | rfl := hi
  · exact if_pos hx
  · exact if_pos hx

/-- Settles O43. -/
theorem keyIndexFaults : Obligations.KeyIndexFaults := by
  intro x s i hi hx
  rw [exec_keySkip_of_no_such_key hi hx, State.raise_eq]

/-! ### The wait for a key -/

/-- A key number fits in the byte that `Fx0A` stores. -/
theorem setReg_lowestKey_toNat (s : State) (x : Reg) {keys : BitVec 16} (h : keys ≠ 0) :
    ((s.setReg x (BitVec.ofNat 8 (lowestKey keys))).reg x).toNat = lowestKey keys := by
  obtain ⟨hlt, -⟩ := lowestKey_spec h
  rw [State.setReg_reg, if_pos rfl, BitVec.toNat_ofNat, Nat.mod_eq_of_lt (by omega)]

/-- With no key held the step back undoes the fetch's advance, so the cycle ends where it started, ticked. -/
theorem step_ldVxK_of_no_key {x : Reg} {s : State} {w : Word} (hs : s.halted = false) (hfetch : s.fetch = some w)
    (hdec : decodeWord w = some (.ldVxK x)) (hk : s.input.keys = 0) :
    step s = .next ({ s with ir := w, report := none } : State).tick.nextInputs := by
  have hpc : (s.afterFetch w).pc - 2 = s.pc := BitVec.add_sub_cancel s.pc 2
  have hexec : exec (.ldVxK x) (s.afterFetch w) = .next { s with ir := w, report := none } := by
    rw [exec, execLdVxK_of_no_key (s := s.afterFetch w) hk, hpc]
    rfl
  exact step_of_exec_running hs hfetch hdec hexec hs

/-- Settles O44. -/
theorem waitForKey : Obligations.WaitForKey := by
  intro x s
  refine ⟨fun hk => ?noKey, fun hk => ?key, fun w hs hfetch hdec hk => ?cycle⟩
  case noKey => exact ⟨_, execLdVxK_of_no_key hk, BitVec.sub_add_cancel s.pc 2, rfl⟩
  case key =>
    refine ⟨_, execLdVxK_of_key hk, ?_⟩
    rw [setReg_lowestKey_toNat s x hk]
    obtain ⟨hlt, hheld, hlowest⟩ := lowestKey_spec hk
    exact ⟨hlt, hheld, hlowest, fun r hr => (s.setReg_reg x _ r).trans (if_neg hr), rfl⟩
  case cycle =>
    exact ⟨_, step_ldVxK_of_no_key hs hfetch hdec hk, rfl, tickTimer_toNat s.dt, tickTimer_toNat s.st,
      State.sameCore.refl s⟩

/-! ### The timer registers -/

/-- Settles O45. -/
theorem timerAccess : Obligations.TimerAccess := fun x s =>
  ⟨⟨s.setReg x s.dt, rfl, s.setReg_reg x s.dt, rfl⟩, ⟨s.setDT (s.reg x), rfl, rfl, rfl⟩,
    ⟨s.setST (s.reg x), rfl, rfl, rfl⟩⟩

end Sys2Proof.Machine

/-! PROOFS. Faults (R240 to R253): what an instruction's fault writes, the state a fatal fault leaves at the end of its
cycle, and the stop of a continued stack fault. -/

namespace Sys2Proof.Machine

/-! ### The fault of an instruction (R240, R244) -/

/-- The two states agree on the fault record and on `halted`. -/
def State.SameFaultRecord (s t : State) : Prop :=
  t.faultCode = s.faultCode ∧ t.faultPc = s.faultPc ∧ t.halted = s.halted ∧ t.report = s.report

/-- Of the effects of an instruction only `ExecEffect.raised` touches the fault record, and it does nothing else. -/
theorem exec_sameFaultRecord_or_raises {i : Instr} {s t : State} (h : exec i s = .next t) :
    s.SameFaultRecord t ∨ ∃ k d, k ∈ faultsOf i ∧ t = s.raise k d := by
  cases exec_effect h with
  | raised k d hk => exact .inr ⟨k, d, hk, rfl⟩
  | _ => exact .inl ⟨rfl, rfl, rfl, rfl⟩

/-- Settles O50. -/
theorem faultsAsListed : Obligations.FaultsAsListed := by
  intro i s t h
  obtain hsame | ⟨k, d, hk, rfl⟩ := exec_sameFaultRecord_or_raises h
  · exact .inl hsame
  · exact .inr ⟨k, d, hk, s.raise_eq k d⟩

/-! ### A fatal fault (R252) -/

/-- A cycle that halts a running core is a fetch fault, or a fatal fault raised right after the fetch; it ends without a
tick (R128, R250, R252). -/
theorem halting_step_cases {s t : State} (hs : s.halted = false) (h : step s = .next t) (ht : t.halted = true) :
    (s.fetch = none ∧ t = s.raiseFetchFault.nextInputs) ∨
      ∃ w k d, s.fetch = some w ∧ t = ((s.afterFetch w).raise k d).nextInputs := by
  obtain ⟨hhalt, -⟩ | ⟨-, hfetch, rfl⟩ | ⟨w, -, hfetch, -, rfl⟩ | ⟨w, i, u, -, hfetch, -, hexec, rfl⟩ := step_cases h
  · simp [hs] at hhalt
  · exact .inl ⟨hfetch, State.endCycle_of_halted _ s.raiseFetchFault_halted⟩
  · have hpolicy : s.unknownPolicy = .halt := by simpa [State.unknownCycle, State.raiseUnknownOpcode, hs] using ht
    have hraise : (s.afterFetch w).raiseUnknownOpcode = (s.afterFetch w).raise .unknownOpcode none := by
      simp [State.raiseUnknownOpcode, State.raise, hpolicy]
    refine .inr ⟨w, .unknownOpcode, none, hfetch, ?_⟩
    rw [State.unknownCycle, hraise]
    exact State.endCycle_of_halted _ (Bool.or_true _)
  · rw [State.endCycle_halted] at ht
    obtain ⟨-, -, hsame, -⟩ | ⟨k, d, -, rfl⟩ := exec_sameFaultRecord_or_raises hexec
    · cases (hsame.trans hs).symm.trans ht
    · exact .inr ⟨w, k, d, hfetch, State.endCycle_of_halted _ ht⟩

/-- Settles O11: `pc - 2` of the advanced `pc` is the address the cycle started at. -/
theorem fatalFaultIsPrecise : Obligations.FatalFaultIsPrecise := by
  intro s t hs hstep ht
  obtain ⟨hfetch, rfl⟩ | ⟨w, k, d, hfetch, rfl⟩ := halting_step_cases hs hstep ht
  · rw [hfetch]
    exact ⟨rfl, rfl, rfl, rfl, rfl, rfl, rfl, rfl, rfl, ⟨_, _, rfl, rfl⟩, rfl, rfl⟩
  · have haddr : (s.afterFetch w).pc - 2 = s.pc := BitVec.add_sub_cancel s.pc 2
    have hreport : ((s.afterFetch w).raise k d).report = some ⟨k, s.pc, w, d⟩ := by rw [State.raise_report, haddr]; rfl
    rw [hfetch]
    exact ⟨rfl, rfl, rfl, rfl, rfl, rfl, rfl, rfl, haddr, ⟨k, d, rfl, hreport⟩, rfl, rfl⟩

/-! ### A stack fault under STACK_FAULT_POLICY = continue (R247, U2) -/

theorem State.raiseStackFault_of_goOn {s : State} (k : FaultKind) (h : s.stackPolicy = .goOn) :
    s.raiseStackFault k = .fault (.stackFaultContinued k) := by
  obtain ⟨hhalt, -⟩ | ⟨-, hraise⟩ := s.raiseStackFault_cases k
  · cases h.symm.trans hhalt
  · exact hraise

/-- Settles O20. -/
theorem continuedStackFaultStops : Obligations.ContinuedStackFaultStops := fun _ hpolicy =>
  ⟨fun hfull nnn => (exec_call_of_full nnn hfull).trans (State.raiseStackFault_of_goOn _ hpolicy),
    fun hempty => (exec_ret_of_empty hempty).trans (State.raiseStackFault_of_goOn _ hpolicy)⟩

end Sys2Proof.Machine
